-- ==== Sys2Proof/Word.lean ====
section
/-! DEFINITION. The word types of the Zenro architecture and their plainest arithmetic (R3, R4, R56). -/

namespace Sys2Proof

/-- A byte of storage. -/
abbrev Byte := BitVec 8

/-- A 64-bit register value. -/
abbrev Word := BitVec 64

/-- A 96-bit instruction word (R56). -/
abbrev IWord := BitVec 96

/-- The four issue-slot clusters of a core, in the order that settles ties (R147, R172). -/
inductive Cluster where
  | S
  | L
  | M
  | W
  deriving DecidableEq, Repr, Inhabited

/-- The place of a cluster in the order S, L, M, W; also its KIND code (R75) and its CL code (R349). -/
def Cluster.idx : Cluster → Nat
  | .S => 0
  | .L => 1
  | .M => 2
  | .W => 3

/-- The field of `len` bits of `w` that starts at bit `lo` (R3). -/
def field {n : Nat} (w : BitVec n) (lo len : Nat) : BitVec len := w.extractLsb' lo len

/-- The same field as an unsigned number. -/
def fieldN {n : Nat} (w : BitVec n) (lo len : Nat) : Nat := (field w lo len).toNat

/-- One bit of `w`. -/
def bitAt {n : Nat} (w : BitVec n) (i : Nat) : Bool := w.getLsbD i

/-- A Bool as one bit. -/
def bit1 (b : Bool) : BitVec 1 := BitVec.ofBool b

end Sys2Proof
end

