-- ==== Sys2Proof/Syntax.lean ====
section
/-! DEFINITION. The steps of the machine: one constructor of `Instr` for each row of spec/opcode_table.json,
the 196 instruction words first (R70) and then the 69 events, with the operand and event data they carry. -/

namespace Sys2Proof

/-! ## Parts of an instruction word -/

/-- What every word carries beside its operation: the idle count and the guard (R56, R59). -/
structure Head where
  idle : BitVec 6
  neg  : Bool
  psel : BitVec 5
  deriving DecidableEq, Repr

/-- A register that the integer operations read: classes g, a, y and k (R155). -/
inductive Src where
  | g (n : BitVec 5)
  | a (n : BitVec 4)
  | y (n : BitVec 4)
  | k (n : BitVec 3)
  deriving DecidableEq, Repr

/-- A register that the FP32 operations and the conversions read: classes g and y (R155, R98). -/
inductive FSrc where
  | g (n : BitVec 5)
  | y (n : BitVec 4)
  deriving DecidableEq, Repr

/-- The source of LEA: a g or an a register (R159). -/
inductive LeaSrc where
  | g (n : BitVec 5)
  | a (n : BitVec 4)
  deriving DecidableEq, Repr

/-- The four directions of MOVY; exactly one side is a g register (R155, R160). -/
inductive MovYOp where
  | yFromG (y : BitVec 4) (g : BitVec 5)
  | cbFromG (cb : BitVec 2) (g : BitVec 5)
  | gFromY (g : BitVec 5) (y : BitVec 4)
  | gFromCb (g : BitVec 5) (cb : BitVec 2)
  deriving DecidableEq, Repr

/-- The two directions of MOVK (R155, R160). -/
inductive MovKOp where
  | kFromG (k : BitVec 3) (g : BitVec 5)
  | gFromK (g : BitVec 5) (k : BitVec 3)
  deriving DecidableEq, Repr

/-- The source of PGMOV (R161). -/
inductive PgSrc where
  | p (n : BitVec 5)
  | g (n : BitVec 5)
  deriving DecidableEq, Repr

/-- Condition codes of CMP (R157), in code order. -/
inductive Cond where
  | eq | ne | lt | le | gt | ge | ltu | leu | gtu | geu
  deriving DecidableEq, Repr

/-- Condition codes of FCMP.S (R157), in code order. -/
inductive FCond where
  | eq | ne | lt | le | gt | ge | un | or
  deriving DecidableEq, Repr

/-- A section named by number or through a g register (R137). -/
inductive SecRef where
  | num (n : BitVec 10)
  | reg (g : BitVec 5)
  deriving DecidableEq, Repr

/-- The clusters that a steer may name (R137). -/
inductive Steered where
  | L | M | W
  deriving DecidableEq, Repr

/-- The target of WAITT: a g register or a count after issue (R139). -/
inductive WaitTo where
  | abs (g : BitVec 5)
  | rel (n : BitVec 32)
  deriving DecidableEq, Repr

/-- The system registers of R153. -/
inductive SysReg where
  | ctime | clag | cir | ctx | traprec | mxret | ftab
  | tol (n : BitVec 3)
  | fij
  | kend (n : Fin 6)
  deriving DecidableEq, Repr

/-- An operand of a product word: local store at an a register, or a matrix register (R66, R302). -/
inductive MSrc where
  | ls (a : BitVec 4)
  | reg (m : BitVec 3)
  deriving DecidableEq, Repr

/-- The fields of a product word beside its destination (R309). -/
structure ProdOps where
  a     : MSrc
  b     : MSrc
  ft    : BitVec 4
  ftk   : Bool
  ksel  : BitVec 3
  mcode : BitVec 3
  ncode : BitVec 3
  kcode : BitVec 6
  stamp : BitVec 24
  rel   : Bool
  deriving DecidableEq, Repr

/-- The part of a matrix register that a move names (R66, R151). -/
inductive MPart where
  | whole
  | row (i : BitVec 6)
  | col (j : BitVec 6)
  | diag
  deriving DecidableEq, Repr

/-- The destination of a check, locate, fix or retry word (R309). -/
inductive MDest where
  | bank (b : BitVec 6)
  | reg (m : BitVec 3)
  deriving DecidableEq, Repr

/-- The fields of a format V word (R65). -/
structure VOps where
  cnt : BitVec 12
  ef  : BitVec 4
  da  : BitVec 4
  ds  : BitVec 12
  aa  : BitVec 4
  as  : BitVec 12
  ba  : BitVec 4
  bs  : BitVec 12
  mod : BitVec 8
  deriving DecidableEq, Repr

/-- The fields of a recording patch word (R68, R249). -/
structure PatchOps where
  h      : BitVec 5
  a      : BitVec 4
  goff   : BitVec 5
  rows   : BitVec 8
  rowlen : BitVec 12
  ef     : BitVec 4
  g2     : BitVec 5
  g3     : BitVec 5
  deriving DecidableEq, Repr

/-- The fields that the three copy-ins share (R67, R210). -/
structure CopyOps where
  h      : BitVec 5
  a      : BitVec 4
  goff   : BitVec 5
  count  : BitVec 12
  region : BitVec 4
  tag    : BitVec 16
  depth  : BitVec 6
  deriving DecidableEq, Repr

/-- The operand value of a flag or barrier word: an immediate, or a register of class g, y or k (R270). -/
inductive FVal where
  | imm (v : BitVec 32)
  | g (n : BitVec 5)
  | y (n : BitVec 4)
  | k (n : BitVec 3)
  deriving DecidableEq, Repr

/-- The ORDER and SCOPE fields of a flag word (R61, R270). -/
structure FOrd where
  ord   : BitVec 2
  scope : BitVec 3
  deriving DecidableEq, Repr

/-! ## Data that events carry -/

/-- The unit that an uncorrectable error poisons (R367). -/
inductive PoisonUnit where
  | lsLine (n : Nat)
  | memLine (n : Nat)
  | patchData (tid : Nat) (name : Nat)
  | accRow (bank row : Nat)
  | mRow (reg row : Nat)
  | cbSlot (bank slot : Nat)
  | scaleBlock (n : Nat)
  deriving DecidableEq, Repr

/-- The asynchronous events of R125. -/
inductive AsyncEvent where
  | debugHalt
  | preempt
  | interrupt
  deriving DecidableEq, Repr

/-- The fields of a tensor descriptor (R228). -/
structure TensorDesc where
  e3 : BitVec 32
  e2 : BitVec 32
  e1 : BitVec 32
  e0 : BitVec 32
  baseva : BitVec 57
  tid : BitVec 24
  fmt : BitVec 5
  lww : Bool
  remote : Bool
  /-- The reserved bits [127:121] and [32:0], which must be zero. -/
  reserved : BitVec 40
  deriving DecidableEq, Repr

/-- A bound of a range entry: a constant and six coefficients (R329). -/
structure Bound where
  c : BitVec 32
  m : List (BitVec 16)
  deriving DecidableEq, Repr

/-- One entry of a range block, with its four dimension slots outermost first (R329). -/
structure RangeEntry where
  tid : BitVec 24
  write : Bool
  dims : List (Bound × Bound)
  /-- The other bits of the entry's first 8 bytes, which must be zero. -/
  reserved : BitVec 39
  deriving DecidableEq, Repr

/-- A range block: its entries, and the other bits of its header, which must be zero (R329). -/
structure RangeBlock where
  entries : List RangeEntry
  reserved : BitVec 60
  deriving DecidableEq, Repr

/-- What the host submits as one launch (R327): the plane images as bytes, each by its virtual address (R328), the launch list,
and the core set that the crown scheduler gave the launch, in logical order (R331). -/
structure LaunchReq where
  images : List (Nat × List Byte)
  descs  : List TensorDesc
  /-- Each loop-nest record is 32 little-endian 64-bit words (R328). -/
  recs   : List (List Word)
  ranges : List RangeBlock
  cores  : List Nat
  deriving DecidableEq, Repr

/-- A page of a tenant's page table (R203), with its rights (R202), and the tensor that its elements belong to: format,
virtual address of element 0 and number of elements (R229). -/
structure Page where
  tenant : BitVec 4
  va     : Nat
  psz    : BitVec 2
  tier   : BitVec 3
  home   : BitVec 2
  phys   : Nat
  pr     : Bool
  pp     : Bool
  pd     : Bool
  tid    : BitVec 24
  fmt    : BitVec 5
  base   : Nat
  count  : Nat
  installed : Bool
  revoked   : Bool
  deriving DecidableEq, Repr

/-- The kind of a patch (R232). -/
inductive PKind where
  | st | add | max | min | xor | or | and | restore
  deriving DecidableEq, Repr

/-- What a station checks of an operation packet: where it arrives, whether its header parses, the sending package, the
tenant and its key (R382, R384, R386). -/
structure PacketHead where
  station : BitVec 4
  wellFormed : Bool
  source  : BitVec 10
  tenant  : BitVec 4
  key     : Word
  deriving DecidableEq, Repr

/-- A peer's patch (R230, R248, R249, R382). Its task's start floor and, once that has retired, its retire serial come from the
origin's crown scheduler (R235). A core that replays a cancelled span marks it (R243). -/
structure PeerPatch where
  tid     : BitVec 24
  name    : Word
  kind    : PKind
  ef      : Nat
  sat     : Bool
  first   : Nat
  rows    : Nat
  cols    : Nat
  pitch   : Nat
  data    : List Nat
  sf      : Nat
  rs      : Option Nat
  replay  : Bool
  deriving DecidableEq, Repr

/-- What OPERATION_PACKET_ARRIVAL brings: a patch, or a pod-scope release of a peer's core with its number there and its
release set (R244, R267, R382). -/
inductive PacketBody where
  | patch (p : PeerPatch)
  | release (id : Nat) (set : List (Nat × Word))
  deriving DecidableEq, Repr

/-- An operation packet from a peer device (R382). -/
structure Packet where
  head : PacketHead
  body : PacketBody
  deriving DecidableEq, Repr

/-- What a peer's crown scheduler reports of a tenant (R235, R238, R239): its seal line, -1 for none; the retire serials of
tasks that have retired; and the least start floor of the tasks that run. -/
structure SealReport where
  line : Int
  serials : List (Nat × Nat)
  floor : Option Nat
  deriving DecidableEq, Repr

/-- The fields of a shard's 64-byte header (R379). -/
structure ShardHead where
  magic : BitVec 32
  version : BitVec 16
  fmt  : BitVec 8
  flags : BitVec 8
  tid  : BitVec 32
  e0 : BitVec 32
  e1 : BitVec 32
  e2 : BitVec 32
  e3 : BitVec 32
  reserved : BitVec 32
  digest : BitVec 256
  deriving DecidableEq, Repr

/-- A shard of a checkpoint: its header and its payload (R379). -/
structure Shard where
  head : ShardHead
  payload : List Byte
  deriving DecidableEq, Repr

/-- A checkpoint offered for loading (R380, R381): its shards, and its manifest as the bytes that stand in storage. -/
structure Checkpoint where
  tenant : BitVec 4
  shards : List Shard
  manifest : List Byte
  deriving DecidableEq, Repr

/-- A submission of the host (R388), by type. -/
inductive Submission where
  | launch (l : LaunchReq)
  | cancel (id : Nat)
  | checkpoint (tids : List (BitVec 24))
  | load (c : Checkpoint)
  | attest (nonce : BitVec 256)
  | debugger (attach : Bool)
  | replay (start : BitVec 32)
  deriving DecidableEq, Repr

/-- A submission entry with its sequence number (R389). -/
structure SubEntry where
  seq : BitVec 32
  sub : Submission
  deriving DecidableEq, Repr

/-- What a tenant record says of one tenant (R391): limits, weight, quotas (of the cache area die by die, of LPDDR-6 in bytes),
debuggable. -/
structure TenantLimits where
  id      : BitVec 4
  share   : Nat
  weight  : Nat
  records : Nat
  data    : Nat
  cache   : List Nat
  lpddr   : Nat
  debug   : Bool
  deriving DecidableEq, Repr

/-- The areas into which a configuration record divides a compute die's canopy SRAM, in bytes: the bases of canopy-tier tensors,
the patch data area of the graft slice, and the cache area for LPDDR-6 data (R13, R391). -/
structure CanopyArea where
  base  : Nat
  patch : Nat
  cache : Nat
  deriving DecidableEq, Repr, Inhabited

/-- What a configuration record says, by type (R391); of the canopy SRAM, the areas of each compute die. -/
inductive RecordBody where
  | drawer (l : Nat) (slots : List (Nat × Nat × BitVec 32))
  | tenants (ts : List TenantLimits)
  | areas (rollback spillQueue : Nat) (dies : List CanopyArea)
  | retrain (limit : Nat)
  | origin (n : BitVec 10)
  | unknown (ty : Nat)
  deriving DecidableEq, Repr

/-- A configuration record of the boot flash, with its digest and signature (R390, R391). -/
structure ConfigRecord where
  length  : Nat
  version : Nat
  body    : RecordBody
  digest    : BitVec 256
  signature : BitVec 512
  deriving DecidableEq, Repr

/-- An image of the boot chain as found in the flash, with its version, digest and signature (R390). -/
structure BootStage where
  image     : List Byte
  version   : Nat
  digest    : BitVec 256
  signature : BitVec 512
  deriving DecidableEq, Repr

/-- The contents of the boot flash that the boot chain reads (R390, R391): the root key, the images of stages 0 to 2, the
configuration records, the monotonic counter, and the device identity: its key pair, encrypted, and its certificate (R392). -/
structure BootFlash where
  rootKey : List Byte
  stages  : List BootStage
  records : List ConfigRecord
  monotonic : Nat
  identity     : List Byte
  identityCert : List Byte
  deriving DecidableEq, Repr

/-- A write that a debugger makes from the freeze view (R363). -/
inductive DebugWrite where
  | y (n : BitVec 4) (v : Word)
  | k (n : BitVec 3) (v : Word)
  | cb (n : BitVec 2) (v : Word)
  | sys (r : SysReg) (v : Word)
  | ls (addr : Nat) (b : Byte)
  | shadowG (n : BitVec 5) (v : Word)
  | shadowP (n : BitVec 5) (v : Bool)
  deriving DecidableEq, Repr

/-- What a peer asks for when a UALink station trains (R382). -/
structure Training where
  port : Nat
  atomics : Bool
  security : Bool
  other : Bool
  deriving DecidableEq, Repr

/-- The tenant context that a station keeps (R383). -/
structure StationCtx where
  tenant : BitVec 4
  key : Word
  partition : Nat
  weight : BitVec 8
  deriving DecidableEq, Repr

/-- What TENANT_JOIN brings a station: the tenant's context, and the packages of its partition with the version words of their
crown schedulers (R383, R384, R387). -/
structure Joining where
  ctx   : StationCtx
  peers : List (BitVec 10 × BitVec 32)
  deriving DecidableEq, Repr

/-! ## The steps -/

/-- The steps of the machine. The words follow the order of spec/opcode_table.json, each with its head; the
events follow, each with the data that the event carries. -/
inductive Instr where
  -- control and time (R129 to R141)
  | nop (hd : Head)
  | idle (hd : Head) (n : BitVec 16)
  | br (hd : Head) (tgt : BitVec 12) (sec : BitVec 10)
  | brx (hd : Head) (g : BitVec 5)
  | call (hd : Head) (g : BitVec 5) (tgt : BitVec 12) (sec : BitVec 10)
  | ret (hd : Head) (g : BitVec 5)
  | jsec (hd : Head) (t : SecRef)
  | jsecSteer (hd : Head) (c : Steered) (t : SecRef)
  | jsecPark (hd : Head) (c : Steered)
  | loop (hd : Head) (g : BitVec 5) (tgt : BitVec 12) (sec : BitVec 10)
  | loopx (hd : Head) (k : BitVec 3) (e : BitVec 5) (step : BitVec 16) (tgt : BitVec 12) (sec : BitVec 10)
  | waitt (hd : Head) (t : WaitTo)
  | halt (hd : Head)
  | quiet (hd : Head)
  | yield (hd : Head)
  | time (hd : Head) (g : BitVec 5)
  | trunk (hd : Head) (g : BitVec 5)
  | trap (hd : Head) (n : BitVec 5)
  | eret (hd : Head)
  | bkpt (hd : Head) (tag : BitVec 8)
  -- system registers, phases, spill engine
  | mfs (hd : Head) (g : BitVec 5) (r : SysReg)
  | mts (hd : Head) (r : SysReg) (g : BitVec 5)
  | phdecl (hd : Head) (idx : BitVec 4) (base size : BitVec 14) (rd wr : BitVec 5) (db tag : Bool)
  | phdeclClear (hd : Head) (idx : BitVec 4)
  | phsw (hd : Head) (g : BitVec 5) (tag : BitVec 16)
  | spill (hd : Head) (q : BitVec 4) (a : BitVec 4) (m : BitVec 3)
  | fill (hd : Head) (q : BitVec 4) (m : BitVec 3) (keep : Bool)
  | fillDrop (hd : Head) (q : BitVec 4)
  | qwait (hd : Head) (q : BitVec 4)
  | qtest (hd : Head) (p : BitVec 5) (q : BitVec 4)
  -- scalar ALU
  | add (hd : Head) (d : BitVec 5) (s1 s2 : Src)
  | sub (hd : Head) (d : BitVec 5) (s1 s2 : Src)
  | mul (hd : Head) (d : BitVec 5) (s1 s2 : Src)
  | mulh (hd : Head) (d : BitVec 5) (s1 s2 : Src)
  | div (hd : Head) (d : BitVec 5) (s1 s2 : Src)
  | rem (hd : Head) (d : BitVec 5) (s1 s2 : Src)
  | and (hd : Head) (d : BitVec 5) (s1 s2 : Src)
  | or (hd : Head) (d : BitVec 5) (s1 s2 : Src)
  | xor (hd : Head) (d : BitVec 5) (s1 s2 : Src)
  | andn (hd : Head) (d : BitVec 5) (s1 s2 : Src)
  | shl (hd : Head) (d : BitVec 5) (s1 s2 : Src)
  | shr (hd : Head) (d : BitVec 5) (s1 s2 : Src)
  | sar (hd : Head) (d : BitVec 5) (s1 s2 : Src)
  | rol (hd : Head) (d : BitVec 5) (s1 s2 : Src)
  | min (hd : Head) (d : BitVec 5) (s1 s2 : Src)
  | max (hd : Head) (d : BitVec 5) (s1 s2 : Src)
  | addi (hd : Head) (d : BitVec 5) (s1 : Src) (imm : BitVec 56)
  | andImm (hd : Head) (d : BitVec 5) (s1 : Src) (imm : BitVec 56)
  | orImm (hd : Head) (d : BitVec 5) (s1 : Src) (imm : BitVec 56)
  | xorImm (hd : Head) (d : BitVec 5) (s1 : Src) (imm : BitVec 56)
  | andnImm (hd : Head) (d : BitVec 5) (s1 : Src) (imm : BitVec 56)
  | shlImm (hd : Head) (d : BitVec 5) (s1 : Src) (imm : BitVec 56)
  | shrImm (hd : Head) (d : BitVec 5) (s1 : Src) (imm : BitVec 56)
  | sarImm (hd : Head) (d : BitVec 5) (s1 : Src) (imm : BitVec 56)
  | rolImm (hd : Head) (d : BitVec 5) (s1 : Src) (imm : BitVec 56)
  | minImm (hd : Head) (d : BitVec 5) (s1 : Src) (imm : BitVec 56)
  | maxImm (hd : Head) (d : BitVec 5) (s1 : Src) (imm : BitVec 56)
  | clz (hd : Head) (d : BitVec 5) (s1 : Src)
  | popc (hd : Head) (d : BitVec 5) (s1 : Src)
  | ldi (hd : Head) (d : BitVec 5) (imm : BitVec 56)
  | sel (hd : Head) (d : BitVec 5) (p : BitVec 5) (s2 s3 : Src)
  | cmp (hd : Head) (p : BitVec 5) (s1 s2 : Src) (c : Cond)
  | fadds (hd : Head) (d : BitVec 5) (s1 s2 : FSrc)
  | fmuls (hd : Head) (d : BitVec 5) (s1 s2 : FSrc)
  | ffmas (hd : Head) (d : BitVec 5) (s1 s2 s3 : FSrc)
  | fcmps (hd : Head) (p : BitVec 5) (s1 s2 : FSrc) (c : FCond)
  | fmins (hd : Head) (d : BitVec 5) (s1 s2 : FSrc)
  | fmaxs (hd : Head) (d : BitVec 5) (s1 s2 : FSrc)
  | lea (hd : Head) (a : BitVec 4) (s1 : LeaSrc) (imm : BitVec 56)
  | ainc (hd : Head) (a : BitVec 4) (imm : BitVec 56)
  | movy (hd : Head) (op : MovYOp)
  | movk (hd : Head) (op : MovKOp)
  | pgand (hd : Head) (d a b : BitVec 5)
  | pgor (hd : Head) (d a b : BitVec 5)
  | pgxor (hd : Head) (d a b : BitVec 5)
  | pgnot (hd : Head) (d a : BitVec 5)
  | pgmov (hd : Head) (d : BitVec 5) (s : PgSrc)
  -- scalar local store
  | lds (hd : Head) (g : BitVec 5) (a : BitVec 4) (sz : BitVec 2) (sx : Bool) (off : BitVec 32)
  | sts (hd : Head) (g : BitVec 5) (a : BitVec 4) (sz : BitVec 2) (off : BitVec 32)
  | ldsx (hd : Head) (g : BitVec 5) (a : BitVec 4) (gi : BitVec 5) (sz : BitVec 2) (sx sc : Bool)
  | stsx (hd : Head) (g : BitVec 5) (a : BitVec 4) (gi : BitVec 5) (sz : BitVec 2) (sc : Bool)
  -- matrix engine
  | mma (hd : Head) (acc : BitVec 6) (o : ProdOps)
  | mmas (hd : Head) (acc : BitVec 6) (o : ProdOps)
  | mmac (hd : Head) (m : BitVec 3) (o : ProdOps)
  | mld (hd : Head) (m : BitVec 3) (a : BitVec 4) (part : MPart)
  | mst (hd : Head) (m : BitVec 3) (a : BitVec 4) (part : MPart)
  | mmov (hd : Head) (d s : BitVec 3) (part : MPart)
  | mzero (hd : Head) (m : BitVec 3) (part : MPart)
  | mdrain (hd : Head) (acc : BitVec 6) (a : BitVec 4) (mcode ncode : BitVec 3) (first : BitVec 6) (grp : BitVec 2)
  | mchk (hd : Head) (d : MDest) (nxt : Bool)
  | mloc (hd : Head) (d : MDest) (g : BitVec 5)
  | mfix (hd : Head) (d : MDest) (g : BitVec 5)
  | mretry (hd : Head) (d : MDest)
  | mtols (hd : Head) (a : BitVec 4)
  -- accumulator and scale memory
  | acalloc (hd : Head) (acc : BitVec 6) (zero : Bool) (count1 : BitVec 6)
  | acfree (hd : Head) (acc : BitVec 6) (count1 : BitVec 6)
  | acband (hd : Head) (acc : BitVec 6) (owners : BitVec 8)
  | acrd (hd : Head) (acc : BitVec 6) (a : BitVec 4) (mcode ncode : BitVec 3) (first : BitVec 6) (grp : BitVec 2)
  | acwr (hd : Head) (acc : BitVec 6) (a : BitVec 4) (mcode ncode : BitVec 3) (first : BitVec 6)
  | aczero (hd : Head) (acc : BitVec 6) (mcode ncode : BitVec 3) (first : BitVec 6)
  | scld (hd : Head) (a : BitVec 4) (kcode : BitVec 6) (off : BitVec 8)
  -- vector engine
  | vadd (hd : Head) (v : VOps)
  | vsub (hd : Head) (v : VOps)
  | vmul (hd : Head) (v : VOps)
  | vfma (hd : Head) (v : VOps)
  | vmax (hd : Head) (v : VOps)
  | vmin (hd : Head) (v : VOps)
  | vabs (hd : Head) (v : VOps)
  | vneg (hd : Head) (v : VOps)
  | vclamp (hd : Head) (v : VOps)
  | vrcp (hd : Head) (v : VOps)
  | vrsqrt (hd : Head) (v : VOps)
  | vsqrt (hd : Head) (v : VOps)
  | vexp2 (hd : Head) (v : VOps)
  | vlog2 (hd : Head) (v : VOps)
  | vtanh (hd : Head) (v : VOps)
  | vrsum (hd : Head) (v : VOps)
  | vrmax (hd : Head) (v : VOps)
  | vrmin (hd : Head) (v : VOps)
  | vscan (hd : Head) (v : VOps)
  | vcmp (hd : Head) (v : VOps)
  | vsel (hd : Head) (v : VOps)
  | vcompact (hd : Head) (v : VOps)
  | viota (hd : Head) (v : VOps)
  | vtopk (hd : Head) (v : VOps)
  | vgather (hd : Head) (v : VOps)
  | vbcast (hd : Head) (v : VOps)
  | vmov (hd : Head) (v : VOps)
  | vand (hd : Head) (v : VOps)
  | vor (hd : Head) (v : VOps)
  | vxor (hd : Head) (v : VOps)
  | vshl (hd : Head) (v : VOps)
  | vshr (hd : Head) (v : VOps)
  | vrand (hd : Head) (v : VOps)
  | vcbx (hd : Head) (v : VOps)
  -- codebooks and the format table
  | cbld (hd : Head) (bank : BitVec 2) (a : BitVec 4) (count1 : BitVec 8) (ebytes1 : BitVec 7)
  | cbwait (hd : Head) (bank : BitVec 2)
  | cbsave (hd : Head) (bank : BitVec 2) (a : BitVec 4)
  | cbrest (hd : Head) (bank : BitVec 2)
  | cbchk (hd : Head) (p : BitVec 5) (bank : BitVec 2)
  | ftset (hd : Head) (n : BitVec 4) (g : BitVec 5)
  -- copies, residency, handles
  | cpin (hd : Head) (o : CopyOps)
  | cpin2 (hd : Head) (o : CopyOps) (pitch : BitVec 12) (rowlines1 : BitVec 8)
  | gather (hd : Head) (o : CopyOps) (list : BitVec 4) (rowlines1 : BitVec 8)
  | pfetch (hd : Head) (h : BitVec 5) (goff : BitVec 5) (units : BitVec 12) (tok : BitVec 4)
  | pfwait (hd : Head) (g : BitVec 5) (tok : BitVec 4)
  | pfpin (hd : Head) (h : BitVec 5) (goff : BitVec 5) (units : BitVec 12) (tok : BitVec 4)
  | pfunpin (hd : Head) (h : BitVec 5) (goff : BitVec 5) (units : BitVec 12)
  | discard (hd : Head) (h : BitVec 5) (goff : BitVec 5) (units : BitVec 12) (tok : BitVec 4)
  | slotrdEntry (hd : Head) (g : BitVec 5) (group : BitVec 4) (slot : BitVec 10)
  | slotrdGap (hd : Head) (g : BitVec 5) (group : BitVec 4)
  | slotrdLat (hd : Head) (g : BitVec 5)
  | xlate (hd : Head) (h : BitVec 5) (g : BitVec 5)
  | hdrop (hd : Head) (h : BitVec 5)
  | htest (hd : Head) (g : BitVec 5) (h : BitVec 5)
  | hmov (hd : Head) (d s : BitVec 5)
  -- patches
  | pst (hd : Head) (o : PatchOps)
  | padd (hd : Head) (o : PatchOps) (sat : Bool)
  | pmax (hd : Head) (o : PatchOps)
  | pmin (hd : Head) (o : PatchOps)
  | pxor (hd : Head) (o : PatchOps)
  | por (hd : Head) (o : PatchOps)
  | pand (hd : Head) (o : PatchOps)
  | pinv (hd : Head) (h : BitVec 5) (name : BitVec 5)
  | pdrop (hd : Head) (p : BitVec 5) (h : BitVec 5) (name : BitVec 5)
  | pcomm (hd : Head) (p : BitVec 5) (h : BitVec 5) (na nb : BitVec 5)
  | pxpl (hd : Head) (h : BitVec 5) (goff : BitVec 5) (name : BitVec 5) (src : BitVec 5)
  | psq (hd : Head) (h : BitVec 5)
  | pmrg (hd : Head) (p : BitVec 5) (h : BitVec 5) (na nb : BitVec 5)
  | ppub (hd : Head) (scope : BitVec 3)
  | pwait (hd : Head)
  | pname (hd : Head) (g : BitVec 5)
  | psnapOn (hd : Head) (h : BitVec 5)
  | psnapOff (hd : Head) (h : BitVec 5)
  -- flags, barriers, scheduler
  | fenceAcq (hd : Head) (scope : BitVec 3)
  | fenceRel (hd : Head) (scope : BitVec 3)
  | fenceAcqrel (hd : Head) (scope : BitVec 3)
  | fset (hd : Head) (f : BitVec 8) (v : FVal) (o : FOrd)
  | fadd (hd : Head) (g : BitVec 5) (f : BitVec 8) (v : FVal) (o : FOrd)
  | fwait (hd : Head) (g : BitVec 5) (f : BitVec 8) (v : FVal) (o : FOrd)
  | fget (hd : Head) (g : BitVec 5) (f : BitVec 8) (o : FOrd)
  | bara (hd : Head) (b : BitVec 4) (scope : BitVec 3)
  | barw (hd : Head) (g : BitVec 5) (b : BitVec 4) (v : FVal) (scope : BitVec 3)
  | kick (hd : Head) (g : BitVec 5) (a : BitVec 4) (crit : Bool)
  | kwait (hd : Head) (g : BitVec 5)
  | swap (hd : Head) (g : BitVec 5)
  | taskend (hd : Head)
  -- conversions, check register
  | cvt (hd : Head) (d : BitVec 5) (s : FSrc) (sat : Bool) (sf df : BitVec 5) (mode : BitVec 4)
  | fclass (hd : Head) (d : BitVec 5) (s : FSrc) (fmt : BitVec 5)
  | vcvt (hd : Head) (v : VOps)
  | vquant (hd : Head) (v : VOps)
  | vdeq (hd : Head) (v : VOps)
  | vbscl (hd : Head) (v : VOps)
  | vpack (hd : Head) (v : VOps)
  | vunpack (hd : Head) (v : VOps)
  | chkerr (hd : Head) (g : BitVec 5) (clr : Bool)
  -- events of the core
  | idleExpiry (c : Cluster)
  | waitConditionMet (c : Cluster)
  | sectionFallThrough (c : Cluster)
  | entryWaitMet (c : Cluster)
  | revocationMarker (tenant : BitVec 4) (va : Nat)
  | pageRelease (tenant : BitVec 4) (va : Nat)
  | drawerUnitArrival (id unit : Nat)
  | linkRetrainComplete (group : BitVec 4)
  | linkGroupDown (group : BitVec 4)
  | copyInCompletion (id : Nat)
  | prefetchDone (tok : BitVec 4)
  | patchArrival (id : Nat)
  | patchReoffer (id : Nat)
  | patchAnswer (id : Nat)
  | sealLineUpdate (tenant : BitVec 4) (peer : Option (PacketHead × SealReport))
  | operationPacketArrival (p : Packet)
  | sourceCloseExpiry (source : BitVec 4 × BitVec 10)
  | podReleaseAck (head : PacketHead) (id : Nat)
  | releaseComplete (id : Nat)
  | checkpointCopyAdvance (tid : BitVec 24)
  | asyncEventArrival (e : AsyncEvent)
  | throttleBubble (n : Nat)
  -- events of the host, the crown scheduler and management
  | submitLaunch (tenant : BitVec 4) (seq : BitVec 32) (l : LaunchReq)
  | cancelLaunch (tenant : BitVec 4) (seq : BitVec 32) (id : Nat)
  | takeCheckpoint (tenant : BitVec 4) (seq : BitVec 32) (tids : List (BitVec 24))
  | loadCheckpoint (tenant : BitVec 4) (seq : BitVec 32) (c : Checkpoint)
  | attestation (tenant : BitVec 4) (seq : Option (BitVec 32)) (nonce : BitVec 256)
  | debuggerAttach (tenant : BitVec 4) (seq : Option (BitVec 32)) (on : Bool)
  | replayCompletions (tenant : BitVec 4) (seq : BitVec 32) (start : BitVec 32)
  | doorbell (tenant : BitVec 4) (es : List SubEntry)
  | hiverWrite (hmaj hmin : BitVec 4)
  | flagFileGrant (launch : Nat)
  | flagFileSave (launch : Nat)
  | walkPointReached (launch record : Nat)
  | taskDispatch (launch : Nat) (ix : Nat) (core : Nat)
  | contextRestore (slot : Nat)
  | taskRetirement (tenant : BitVec 4) (ix : Nat)
  | strikeReport (zone : Nat)
  | eccUncorrectable (u : PoisonUnit)
  | debugStep (n : BitVec 16)
  | debugWriteState (w : DebugWrite)
  | hostWake (flash : BootFlash)
  | ualinkTraining (station : BitVec 4) (t : Training)
  | ualinkLinkDown (station : BitVec 4)
  | tenantJoin (station : BitVec 4) (c : Joining)
  | tenantTeardown (tenant : BitVec 4)
  | tenantCreation (tenant : BitVec 4) (subQ compQ faultQ : Nat × Nat) (pages : List Page)
  | linkGroupRetrain (group : BitVec 4)
  | firmwareUpdate (flash : BootFlash)
  -- events that carry nothing
  | joinedQuartetStart
  | faultQueueCopy
  | translationInstall
  | copyCommandStart
  | phaseFinal
  | quietPoint
  | coreResume
  | preemptionRequest
  | contextSave
  | haltRetirement
  | kickPlacement
  | spilledKickEntersPool
  | crownTakeover
  | debugResume
  | debugStepExpiry
  | thermalPowerOff
  | trunkCycle
  | launchCompletion
  | planeLoad
  | planeWordError
  deriving DecidableEq, Repr

end Sys2Proof
end

