-- ==== Sys2Proof/WellFormed.lean ====
section
/-! DEFINITION. Which instruction words the field values of their descriptions allow (R62, reason 6 of R74),
as far as the word alone decides it. What depends on the context of issue (joined section, shadow context, own
section) is checked where the word issues. Every event is well formed. -/

namespace Sys2Proof

/-- Section numbers run from 0 to 1,022 (R64). A word with 0x3FF is ILLEGAL WORD reason 6, and no BRANCH TARGET (DEDUCED, unsafe, log
entry 76). -/
def secOk (n : BitVec 10) : Bool := n != 0x3FF#10

/-- Word indices run from 0 to 4,094 (R64). A word with 0xFFF is ILLEGAL WORD reason 6, and no BRANCH TARGET (DEDUCED, unsafe, log
entry 76). -/
def tgtOk (n : BitVec 12) : Bool := n != 0xFFF#12

/-- A section named by number or register (R137). -/
def SecRef.wf : SecRef → Bool
  | .num n => secOk n
  | .reg _ => true

/-- Banks 0 to 61 have names (R66). -/
def bankOk (b : BitVec 6) : Bool := b.toNat < 62

/-- The destination of a check word (R66, R309). -/
def MDest.wf : MDest → Bool
  | .bank b => bankOk b
  | .reg _ => true

/-- First row and rows stay within the bank (R282, R309). -/
def rowsOk (first : BitVec 6) (mcode : BitVec 3) : Bool := first.toNat + 8 * (mcode.toNat + 1) ≤ 64

/-- An SCOPE and ORDER pair of a flag word or fence (R61, R270). -/
def FOrd.wf (o : FOrd) (orders : List Nat) : Bool :=
  orders.contains o.ord.toNat &&
    (if o.ord = 0#2 then o.scope = 0#3 else 1 ≤ o.scope.toNat && o.scope.toNat ≤ 5)

/-- The scopes of BARA and BARW (R345). -/
def barScopeOk (s : BitVec 3) : Bool := 2 ≤ s.toNat && s.toNat ≤ 5

/-! ### Vector words (R65, R100, R187, R188) -/

/-- Bytes of one element of format code `ef` (R91); 0 for a code without a fixed width. -/
def efSize (ef : Nat) : Nat :=
  if ef = 0 ∨ ef = 10 then 8 else if ef = 1 ∨ ef = 9 ∨ ef = 13 then 4
  else if ef = 2 ∨ ef = 3 ∨ ef = 8 ∨ ef = 12 then 2
  else if ef = 4 ∨ ef = 5 ∨ ef = 6 ∨ ef = 7 ∨ ef = 11 then 1 else 0

/-- The float codes F of R187. -/
def isF (ef : Nat) : Bool := ef ≤ 5

/-- The integer codes I of R187. -/
def isI (ef : Nat) : Bool := 7 ≤ ef && ef ≤ 13

/-- Which streams a vector word uses. -/
structure Streams where
  a : Bool
  b : Bool
  d : Bool
  /-- The steps that must be 0 (R188). -/
  az : Bool := false
  bz : Bool := false
  dz : Bool := false
  deriving DecidableEq, Repr

/-- Steps that R188 requires to be 0 are 0. -/
def Streams.stepsOk (t : Streams) (v : VOps) : Bool :=
  (!t.az || v.as = 0#12) && (!t.bz || v.bs = 0#12) && (!t.dz || v.ds = 0#12)

/-- A stream that the word does not use has register and step 0 (R187, reason 4). -/
def Streams.unusedOk (t : Streams) (v : VOps) : Bool :=
  (t.a || (v.aa = 0#4 && v.as = 0#12)) && (t.b || (v.ba = 0#4 && v.bs = 0#12)) &&
    (t.d || (v.da = 0#4 && v.ds = 0#12))

/-- The MODE field of layouts E, O and of the conversions. -/
def VOps.mode (v : VOps) : Nat := fieldN v.mod 1 3

/-- The OF field (R100, R187). -/
def VOps.off (v : VOps) : Nat := fieldN v.mod 4 4

/-- Layout E (R187): bits [7:4] are 0 (reason 4), MODE 0 to 3. -/
def VOps.modE (v : VOps) : Bool := fieldN v.mod 4 4 = 0 && v.mode ≤ 3

/-- Layout O with the class rule of R192. -/
def VOps.modO (v : VOps) : Bool :=
  v.mode ≤ 3 && ((isF v.ef.toNat && isF v.off) || (isI v.ef.toNat && isI v.off))

def streamsABD : Streams := { a := true, b := true, d := true }
def streamsAD : Streams := { a := true, b := false, d := true }
def streamsD : Streams := { a := false, b := false, d := true }

/-- Streams, formats and MOD of one vector word together. -/
def VOps.fits (v : VOps) (t : Streams) (efOk modOk : Bool) : Bool :=
  t.unusedOk v && t.stepsOk v && efOk && modOk

/-- Codes of a CVT format field (R98). -/
def cvtCode (n : BitVec 5) : Bool := n.toNat ≤ 13 || n.toNat = 16

/-- A PHDECL's region lies in local store and a double buffer has two equal halves (R182). -/
def phdeclOk (base size : BitVec 14) (db : Bool) : Bool :=
  base.toNat + size.toNat + 1 ≤ 16384 && !(db && (size.toNat + 1) % 2 = 1)

/-- Formats of patch data (R249). -/
def patchEfOk (ef : BitVec 4) : Bool := ef.toNat ≤ 13

/-- An operand register of class k, g or y needs a zero immediate, which the constructors already say (R270). -/
def FVal.wf : FVal → Bool
  | .imm _ => true
  /- S = 0x00 is the specifier of g0 and means the immediate, so the value 0 is written as an immediate. -/
  | .g n => n != 0#5
  | .y _ => true
  | .k _ => true

/-- The static checks of every instruction word (R62, R74 reason 6). A VTOPK with CNT 0 has fewer than K elements and is illegal by
R196, though R65 calls a word with count 0 a no-op (DEDUCED, unsafe, log entry 76). -/
def Instr.wf : Instr → Bool
  | .br _ tgt sec => tgtOk tgt && secOk sec
  | .call _ _ tgt sec => tgtOk tgt && secOk sec
  | .jsec _ t => t.wf
  | .jsecSteer _ _ t => t.wf
  | .loop _ _ tgt sec => tgtOk tgt && secOk sec
  | .loopx _ _ _ step tgt sec => tgtOk tgt && secOk sec && step != 0#16
  | .mts _ r _ =>
      match r with
      | .cir | .mxret | .tol _ | .fij => true
      | _ => false
  | .phdecl _ _ base size _ _ db _ => phdeclOk base size db
  | .mma _ acc _ => bankOk acc
  | .mmas _ acc _ => bankOk acc
  | .mdrain _ acc _ mcode _ first _ => bankOk acc && rowsOk first mcode
  | .mchk _ d _ => d.wf
  | .mloc _ d _ => d.wf
  | .mfix _ d _ => d.wf
  | .mretry _ d => d.wf
  | .acalloc _ acc _ count1 => acc.toNat + count1.toNat + 1 ≤ 62
  | .acfree _ acc count1 => acc.toNat + count1.toNat + 1 ≤ 62
  | .acband _ acc _ => bankOk acc
  | .acrd _ acc _ mcode _ first _ => bankOk acc && rowsOk first mcode
  | .acwr _ acc _ mcode _ first => bankOk acc && rowsOk first mcode
  | .aczero _ acc mcode _ first => bankOk acc && rowsOk first mcode
  | .scld _ _ kcode off => off.toNat * 256 + 256 * (kcode.toNat + 1) ≤ 65536
  | .vadd _ v => v.fits streamsABD (isF v.ef.toNat || isI v.ef.toNat) v.modE
  | .vsub _ v => v.fits streamsABD (isF v.ef.toNat || isI v.ef.toNat) v.modE
  | .vmul _ v => v.fits streamsABD (isF v.ef.toNat || isI v.ef.toNat) v.modE
  | .vfma _ v => v.fits streamsABD (isF v.ef.toNat) v.modE
  | .vmax _ v => v.fits streamsABD (isF v.ef.toNat || isI v.ef.toNat) v.modE
  | .vmin _ v => v.fits streamsABD (isF v.ef.toNat || isI v.ef.toNat) v.modE
  | .vabs _ v => v.fits streamsAD (isF v.ef.toNat || isI v.ef.toNat) v.modE
  | .vneg _ v => v.fits streamsAD (isF v.ef.toNat || isI v.ef.toNat) v.modE
  | .vclamp _ v => v.fits { streamsABD with bz := true } (isF v.ef.toNat || isI v.ef.toNat) v.modE
  | .vrcp _ v => v.fits streamsAD (isF v.ef.toNat) v.modE
  | .vrsqrt _ v => v.fits streamsAD (isF v.ef.toNat) v.modE
  | .vsqrt _ v => v.fits streamsAD (isF v.ef.toNat) v.modE
  | .vexp2 _ v => v.fits streamsAD (isF v.ef.toNat) v.modE
  | .vlog2 _ v => v.fits streamsAD (isF v.ef.toNat) v.modE
  | .vtanh _ v => v.fits streamsAD (isF v.ef.toNat) v.modE
  | .vrsum _ v => v.fits { streamsAD with dz := true } (isF v.ef.toNat || isI v.ef.toNat) v.modO
  | .vrmax _ v => v.fits { streamsAD with dz := true } (isF v.ef.toNat || isI v.ef.toNat) v.modO
  | .vrmin _ v => v.fits { streamsAD with dz := true } (isF v.ef.toNat || isI v.ef.toNat) v.modO
  | .vscan _ v => v.fits streamsAD (isF v.ef.toNat || isI v.ef.toNat) v.modO
  | .vcmp _ v => v.fits streamsABD (isF v.ef.toNat || isI v.ef.toNat) (v.mod.toNat ≤ 5)
  | .vsel _ v => v.fits streamsABD (v.ef.toNat ≤ 13) (v.mod = 0#8)
  | .vcompact _ v => v.fits { streamsABD with dz := true } (v.ef.toNat ≤ 13) (v.mod.toNat ≤ 15)
  | .viota _ v => v.fits streamsD (isF v.ef.toNat || isI v.ef.toNat) v.modE
  | .vtopk _ v => v.fits { streamsABD with dz := true, bz := true } (isF v.ef.toNat || isI v.ef.toNat)
      (v.mod.toNat + 1 ≤ v.cnt.toNat * 256 / efSize v.ef.toNat)
  | .vgather _ v => v.fits { streamsABD with dz := true, az := true } (v.ef.toNat ≤ 13)
      (v.mod.toNat ≤ 22 && 2 ^ v.mod.toNat * efSize v.ef.toNat ≤ 4194304)
  | .vbcast _ v => v.fits streamsD (v.ef.toNat ≤ 13) (v.mod.toNat ≤ 15)
  | .vmov _ v => v.fits streamsAD (v.ef.toNat ≤ 13) (v.mod = 0#8)
  | .vand _ v => v.fits streamsABD (isI v.ef.toNat) (v.mod = 0#8)
  | .vor _ v => v.fits streamsABD (isI v.ef.toNat) (v.mod = 0#8)
  | .vxor _ v => v.fits streamsABD (isI v.ef.toNat) (v.mod = 0#8)
  | .vshl _ v => v.fits streamsABD (isI v.ef.toNat) (v.mod = 0#8)
  | .vshr _ v => v.fits streamsABD (isI v.ef.toNat) (v.mod = 0#8)
  | .vrand _ v => v.fits streamsD (v.ef.toNat = 1 || v.ef.toNat = 13) (v.mod.toNat ≤ 15)
  | .vcbx _ v => v.fits { streamsAD with az := true } (v.ef.toNat = 14) (v.mod.toNat ≤ 3)
  | .cpin _ o => o.count != 0#12
  | .cpin2 _ o _ _ => o.count != 0#12
  | .gather _ o _ _ => o.count != 0#12
  | .pfetch _ _ _ units _ => units != 0#12
  | .pfpin _ _ _ units _ => units != 0#12
  | .pfunpin _ _ _ units => units != 0#12
  | .discard _ _ _ units _ => units != 0#12
  | .pst _ o => patchEfOk o.ef
  | .padd _ o _ => patchEfOk o.ef
  | .pmax _ o => patchEfOk o.ef
  | .pmin _ o => patchEfOk o.ef
  | .pxor _ o => patchEfOk o.ef
  | .por _ o => patchEfOk o.ef
  | .pand _ o => patchEfOk o.ef
  | .ppub _ s => 1 ≤ s.toNat && s.toNat ≤ 5
  | .fenceAcq _ s => 1 ≤ s.toNat && s.toNat ≤ 5
  | .fenceRel _ s => 1 ≤ s.toNat && s.toNat ≤ 5
  | .fenceAcqrel _ s => 1 ≤ s.toNat && s.toNat ≤ 5
  | .fset _ _ v o => v.wf && o.wf [0, 2]
  | .fadd _ _ _ v o => v.wf && o.wf [0, 1, 2, 3]
  | .fwait _ _ _ v o => v.wf && o.wf [0, 1]
  | .fget _ _ _ o => o.wf [0, 1]
  | .bara _ _ s => barScopeOk s
  | .barw _ _ _ v s => v.wf && barScopeOk s
  | .cvt _ _ _ _ sf df mode => cvtCode sf && cvtCode df && mode.toNat ≤ 3
  | .fclass _ _ _ fmt => fmt.toNat ≤ 6
  | .vcvt _ v => v.fits streamsAD (v.ef.toNat ≤ 13) (v.mode ≤ 4 && v.off ≤ 13)
  | .vquant _ v => v.fits streamsABD (v.ef.toNat ≤ 3) (v.mode ≤ 4 && 2 ≤ v.off && v.off ≤ 13)
  | .vdeq _ v => v.fits streamsABD (2 ≤ v.ef.toNat && v.ef.toNat ≤ 13) (v.mode ≤ 4 && v.off ≤ 3)
  | .vbscl _ v => v.fits streamsAD (v.ef.toNat ≤ 3) (2 ≤ v.off && v.off ≤ 7 && fieldN v.mod 0 3 = 0)
  | .vpack _ v => v.fits streamsAD (v.ef.toNat = 11) (v.mod.toNat ≤ 7)
  | .vunpack _ v => v.fits streamsAD (v.ef.toNat = 11) (v.mod.toNat ≤ 3)
  | _ => true

/-- A wrapper that reads as a proposition. -/
abbrev WellFormed (i : Instr) : Prop := i.wf = true

end Sys2Proof
end

