-- ==== Sys2Proof/Decode.lean ====
section
/-! DEFINITION. The decoder of instruction words (R56 to R74), total on any 96 bits, and the encoder, both written
from the bodies R63 to R69 and the opcode map R70. -/

namespace Sys2Proof

/-- Why a word does not decode: ZERO WORD (R73) or ILLEGAL WORD (R74) with what its status word names. -/
inductive DecodeFault where
  | zeroWord
  | illegal (reason opc fn low : Nat)
  deriving DecidableEq, Repr

/-! ## The opcode map (R70, R71) -/

/-- The assigned FN values of an opcode as a 16-bit mask; 0 for an unassigned opcode (R70, R71). -/
def opFns (o : Nat) : Nat :=
  if o = 0 then 0 else if o ≤ 0x1A then 1 else if o < 0x20 then 0
  else if o = 0x20 then 0xFFFF else if o = 0x21 then 0xFFC1 else if o = 0x22 then 3
  else if o ≤ 0x25 then 1 else if o = 0x26 then 0x3F else if o ≤ 0x28 then 3 else if o = 0x29 then 0x1F
  else if o ≤ 0x2B then 3 else if o < 0x40 then 0 else if o ≤ 0x4C then 1 else if o < 0x50 then 0
  else if o ≤ 0x56 then 1 else if o < 0x60 then 0 else if o = 0x60 then 0x1FF else if o = 0x61 then 0x3F
  else if o = 0x62 then 0xF else if o = 0x63 then 0x1F else if o = 0x64 then 7 else if o = 0x65 then 0x1F
  else if o ≤ 0x67 then 1 else if o < 0x80 then 0 else if o ≤ 0x85 then 1 else if o < 0x90 then 0
  else if o ≤ 0x98 then 1 else if o < 0xA0 then 0 else if o ≤ 0xA3 then 1 else if o < 0xB0 then 0
  else if o = 0xB0 then 0x7F else if o ≤ 0xBA then 1 else if o < 0xC0 then 0 else if o ≤ 0xCA then 1
  else if o < 0xD0 then 0 else if o ≤ 0xD7 then 1 else if o = 0xE0 then 1 else 0

/-- Whether the cluster's sections may hold the opcode (R70). -/
def opCluster (o : Nat) (c : Cluster) : Bool :=
  if o ≤ 2 ∨ o = 0x12 ∨ (0x20 ≤ o ∧ o ≤ 0x29) ∨ (0xC0 ≤ o ∧ o ≤ 0xC4) ∨ o = 0xD0 ∨ o = 0xD7 then true
  else if o ≤ 0x2B ∨ (0xC5 ≤ o ∧ o ≤ 0xCA) ∨ o = 0xE0 then c == .S
  else if o ≤ 0x85 ∨ (0xD1 ≤ o ∧ o ≤ 0xD6) then c == .M
  else if o = 0xA2 then c == .L || c == .W
  else if o ≤ 0xA3 then c == .L
  else c == .W

/-! ## Fields of the bodies (R63 to R69), each as its lowest bit and its length -/

abbrev Fld := Nat × Nat

def fD : Fld := (64, 8)
def fS1 : Fld := (56, 8)
def fS2 : Fld := (48, 8)
def fS3 : Fld := (40, 8)
def fCond : Fld := (36, 4)
def fImmI : Fld := (0, 56)
def fTgt : Fld := (52, 12)
def fSec : Fld := (42, 10)
def fAcc : Fld := (66, 6)
def fMReg : Fld := (66, 3)
def fASrc : Fld := (64, 2)
def fAReg : Fld := (60, 4)
def fFlag : Fld := (64, 8)
def fScope : Fld := (61, 3)
def fOrder : Fld := (59, 2)
def fYD : Fld := (51, 8)
def fYS : Fld := (43, 8)
def fImmY : Fld := (11, 32)
def fHnd : Fld := (67, 5)
def fCA : Fld := (63, 4)
def fGoff : Fld := (58, 5)
def fCount : Fld := (46, 12)
def fMod : Fld := (0, 8)
def fG2 : Fld := (29, 5)
def fG3 : Fld := (24, 5)
def fPD : Fld := (16, 5)

/-- The streams of a vector word and the used bits of its MOD field (R100, R188). -/
def vecUsed (o f : Nat) : List Fld :=
  let a : List Fld := [(36, 4), (24, 12)]
  let b : List Fld := [(20, 4), (8, 12)]
  let base : List Fld := [(60, 12), (56, 4), (52, 4), (40, 12)]
  let ab := base ++ a ++ b
  if o = 0x60 then (if f = 6 ∨ f = 7 then base ++ a else ab) ++ [(0, 4)]
  else if o = 0x61 then base ++ a ++ [(0, 4)]
  else if o = 0x62 then base ++ a ++ [(0, 8)]
  else if o = 0x63 then
    (if f = 0 then ab ++ [(0, 4)] else if f = 1 then ab else if f = 2 then ab ++ [(0, 4)]
     else if f = 3 then base ++ [(0, 4)] else ab ++ [(0, 8)])
  else if o = 0x64 then (if f = 0 then ab ++ [(0, 5)] else if f = 1 then base ++ [(0, 4)] else base ++ a)
  else if o = 0x65 then ab
  else if o = 0x66 then base ++ [(0, 4)]
  else if o = 0x67 then base ++ a ++ [(0, 2)]
  else if o = 0xD1 then base ++ a ++ [(0, 8)]
  else if o = 0xD2 ∨ o = 0xD3 then ab ++ [(0, 8)]
  else if o = 0xD4 then base ++ a ++ [(3, 5)]
  else base ++ a ++ [(0, 3)]

/-- The used fields of a word's body (R62): every other body bit must be zero (reason 4). The word itself is an
argument, since a few fields are used only for some values of others (R132, R220). -/
def usedFields (o f : Nat) (w : IWord) : List Fld :=
  if o = 0x02 then [(0, 16)]
  else if o = 0x03 then [fTgt, fSec]
  else if o = 0x04 ∨ o = 0x06 ∨ o = 0x0E ∨ o = 0x0F then [fD]
  else if o = 0x05 ∨ o = 0x08 then [fD, fTgt, fSec]
  else if o = 0x07 then (if bitAt w 1 then fD else fSec) :: [(0, 4)]
  else if o = 0x09 then [fD, fTgt, fSec, (34, 8), (0, 16)]
  else if o = 0x0A then (if bitAt w 41 then (0, 32) else fD) :: [(41, 1)]
  else if o = 0x10 then [(0, 5)]
  else if o = 0x12 then [(0, 8)]
  else if o = 0x13 then [fD, fS2]
  else if o = 0x14 then [fS1, fS2]
  else if o = 0x15 then [(11, 45)]
  else if o = 0x16 then [fD, (0, 16)]
  else if o = 0x17 then [fD, fS1, (48, 3)]
  else if o = 0x18 then [fD, (48, 3), (40, 2)]
  else if o = 0x19 then [fS1]
  else if o = 0x1A then [fD, fS1]
  else if o = 0x20 then [fD, fS1, fS2]
  else if o = 0x21 then [fD, fS1, fImmI]
  else if o = 0x22 then [fD, fS1]
  else if o = 0x23 then [fD, fImmI]
  else if o = 0x24 then [fD, fS1, fS2, fS3]
  else if o = 0x25 then [fD, fS1, fS2, fCond]
  else if o = 0x26 then (if f = 2 then [fD, fS1, fS2, fS3] else if f = 3 then [fD, fS1, fS2, fCond] else [fD, fS1, fS2])
  else if o = 0x27 then (if f = 0 then [fD, fS1, fImmI] else [fD, fImmI])
  else if o = 0x28 then [fD, fS1]
  else if o = 0x29 then (if f ≤ 2 then [fD, fS1, fS2] else [fD, fS1])
  else if o = 0x2A then [fD, fS1, (53, 3), (0, 32)]
  else if o = 0x2B then [fD, fS1, fS2, fCond]
  else if o = 0x40 ∨ o = 0x41 then [(34, 38), (8, 24), (7, 1)]
  else if o = 0x42 then [(34, 35), (8, 24), (7, 1)]
  else if o ≤ 0x45 ∧ 0x43 ≤ o then [fMReg, fASrc, fAReg, fMod]
  else if o = 0x46 then [fMReg, fMod]
  else if o = 0x47 ∨ o = 0x53 then [fAcc, fASrc, fAReg, (40, 6), fMod]
  else if o = 0x48 then [fAcc, (5, 2)]
  else if o = 0x49 ∨ o = 0x4A then [fAcc, (0, 6)]
  else if o = 0x4B then [fAcc, (5, 1)]
  else if o = 0x4C then [fASrc, fAReg]
  else if o = 0x50 then [fAcc, (0, 7)]
  else if o = 0x51 then [fAcc, (0, 6)]
  else if o = 0x52 then [fAcc, fMod]
  else if o = 0x54 then [fAcc, fASrc, fAReg, (40, 6), (2, 6)]
  else if o = 0x55 then [fAcc, (40, 6), (2, 6)]
  else if o = 0x56 then [fASrc, fAReg, (34, 6), fMod]
  else if (0x60 ≤ o ∧ o ≤ 0x67) ∨ (0xD1 ≤ o ∧ o ≤ 0xD6) then vecUsed o f
  else if o = 0x80 then [fD, fS1, (41, 15)]
  else if o = 0x81 ∨ o = 0x83 then [fD]
  else if o = 0x82 ∨ o = 0x84 then [fD, fS1]
  else if o = 0x85 then [fS1, fCond]
  else if o = 0x90 then [fHnd, fCA, fGoff, fCount, (30, 4), (14, 16), (8, 6)]
  else if o = 0x91 then [fHnd, fCA, fGoff, fCount, (34, 12), (30, 4), (14, 16), (8, 6), fMod]
  else if o = 0x92 then [fHnd, fCA, fGoff, fCount, (34, 4), (30, 4), (14, 16), (8, 6), fMod]
  else if o = 0x93 ∨ o = 0x95 ∨ o = 0x97 then [fHnd, fGoff, fCount, (0, 4)]
  else if o = 0x94 then [fGoff, (0, 4)]
  else if o = 0x96 then [fHnd, fGoff, fCount]
  else if o = 0x98 then
    (if fieldN w 0 2 = 1 then [fGoff, (46, 4), (0, 2)] else if fieldN w 0 2 = 2 then [fGoff, (0, 2)]
     else [fGoff, (46, 4), (34, 10), (0, 2)])
  else if o = 0xA0 ∨ o = 0xA2 ∨ o = 0xA3 then [fHnd, fGoff]
  else if o = 0xA1 ∨ o = 0xB5 then [fHnd]
  else if o = 0xB0 then [fHnd, fCA, fGoff, (50, 8), (38, 12), (34, 4), fG2, fG3, (0, 1)]
  else if o = 0xB1 then [fHnd, fG2]
  else if o = 0xB2 then [fHnd, fG2, fPD]
  else if o = 0xB3 ∨ o = 0xB6 then [fHnd, fG2, fG3, fPD]
  else if o = 0xB4 then [fHnd, fGoff, fG2, fG3]
  else if o = 0xB7 then [(21, 3)]
  else if o = 0xB9 then [fG2]
  else if o = 0xBA then [fHnd, (0, 1)]
  else if o = 0xC0 then [fScope, fOrder]
  else if o = 0xC1 then [fFlag, fScope, fOrder, fYS, fImmY]
  else if o = 0xC2 ∨ o = 0xC3 ∨ o = 0xC6 then [fFlag, fScope, fOrder, fYD, fYS, fImmY]
  else if o = 0xC4 then [fFlag, fScope, fOrder, fYD]
  else if o = 0xC5 then [fFlag, fScope, fOrder]
  else if o = 0xC7 then [fYD, fYS, (11, 1)]
  else if o = 0xC8 then [fYS]
  else if o = 0xC9 then [fYD]
  else if o = 0xD0 then [fD, fS1, (55, 1), (48, 5), (40, 5), fCond]
  else if o = 0xD7 then [fD, fS1, (48, 5)]
  else if o = 0xE0 then [fYD, (11, 1)]
  else []

/-- Whether bit `i` lies in one of the fields. -/
def Fld.covers (fs : List Fld) (i : Nat) : Bool := fs.any fun f => f.1 ≤ i && i < f.1 + f.2

/-- The lowest set body bit that no used field covers (R74 reason 4). -/
def strayBit (fs : List Fld) (w : IWord) : Option Nat :=
  (List.range 72).find? fun i => bitAt w i && !Fld.covers fs i

/-! ## Operand specifiers (R60) -/

def specClass (s : BitVec 8) : Nat := fieldN s 5 3
def specNum (s : BitVec 8) : BitVec 5 := field s 0 5

def asG (s : BitVec 8) : Option (BitVec 5) := if field s 5 3 = 0#3 then some (field s 0 5) else none
def asA (s : BitVec 8) : Option (BitVec 4) := if field s 4 4 = 0x2#4 then some (field s 0 4) else none
def asP (s : BitVec 8) : Option (BitVec 5) := if field s 5 3 = 2#3 then some (field s 0 5) else none
def asY (s : BitVec 8) : Option (BitVec 4) := if field s 4 4 = 0x6#4 then some (field s 0 4) else none
def asK (s : BitVec 8) : Option (BitVec 3) := if field s 3 5 = 0x14#5 then some (field s 0 3) else none
def asQ (s : BitVec 8) : Option (BitVec 4) := if field s 4 4 = 0xC#4 then some (field s 0 4) else none
def asCb (s : BitVec 8) : Option (BitVec 2) := if field s 2 6 = 0x38#6 then some (field s 0 2) else none

def asSrc (s : BitVec 8) : Option Src :=
  match asG s, asA s, asY s, asK s with
  | some n, _, _, _ => some (.g n)
  | _, some n, _, _ => some (.a n)
  | _, _, some n, _ => some (.y n)
  | _, _, _, some n => some (.k n)
  | _, _, _, _ => none

def asFSrc (s : BitVec 8) : Option FSrc :=
  match asG s, asY s with
  | some n, _ => some (.g n)
  | _, some n => some (.y n)
  | _, _ => none

def asLeaSrc (s : BitVec 8) : Option LeaSrc :=
  match asG s, asA s with
  | some n, _ => some (.g n)
  | _, some n => some (.a n)
  | _, _ => none

def asPgSrc (s : BitVec 8) : Option PgSrc :=
  match asP s, asG s with
  | some n, _ => some (.p n)
  | _, some n => some (.g n)
  | _, _ => none

/-- The register of class g, y or k that a flag word names; `none` also where the field means the immediate. -/
def asFVal (s : BitVec 8) : Option FVal :=
  match asG s, asY s, asK s with
  | some n, _, _ => some (.g n)
  | _, some n, _ => some (.y n)
  | _, _, some n => some (.k n)
  | _, _, _ => none

def specG (n : BitVec 5) : BitVec 8 := 0#3 ++ n
def specA (n : BitVec 4) : BitVec 8 := 2#4 ++ n
def specP (n : BitVec 5) : BitVec 8 := 2#3 ++ n
def specY (n : BitVec 4) : BitVec 8 := 6#4 ++ n
def specK (n : BitVec 3) : BitVec 8 := 0x14#5 ++ n
def specQ (n : BitVec 4) : BitVec 8 := 0xC#4 ++ n
def specCb (n : BitVec 2) : BitVec 8 := 0x38#6 ++ n

def Src.spec : Src → BitVec 8
  | .g n => specG n
  | .a n => specA n
  | .y n => specY n
  | .k n => specK n

def FSrc.spec : FSrc → BitVec 8
  | .g n => specG n
  | .y n => specY n

def LeaSrc.spec : LeaSrc → BitVec 8
  | .g n => specG n
  | .a n => specA n

def PgSrc.spec : PgSrc → BitVec 8
  | .p n => specP n
  | .g n => specG n

def FVal.spec : FVal → BitVec 8
  | .imm _ => 0#8
  | .g n => specG n
  | .y n => specY n
  | .k n => specK n

def FVal.immBits : FVal → BitVec 32
  | .imm v => v
  | _ => 0#32

/-! ## Codes of small operand types -/

def Cond.code : Cond → BitVec 4
  | .eq => 0 | .ne => 1 | .lt => 2 | .le => 3 | .gt => 4 | .ge => 5 | .ltu => 6 | .leu => 7 | .gtu => 8 | .geu => 9

def Cond.ofCode (n : BitVec 4) : Option Cond :=
  [Cond.eq, .ne, .lt, .le, .gt, .ge, .ltu, .leu, .gtu, .geu][n.toNat]?

def FCond.code : FCond → BitVec 4
  | .eq => 0 | .ne => 1 | .lt => 2 | .le => 3 | .gt => 4 | .ge => 5 | .un => 6 | .or => 7

def FCond.ofCode (n : BitVec 4) : Option FCond :=
  [FCond.eq, .ne, .lt, .le, .gt, .ge, .un, .or][n.toNat]?

def Steered.code : Steered → BitVec 2
  | .L => 1 | .M => 2 | .W => 3

def Steered.ofCode (n : BitVec 2) : Option Steered :=
  if n = 1#2 then some .L else if n = 2#2 then some .M else if n = 3#2 then some .W else none

/-- The register numbers of R153. -/
def SysReg.code : SysReg → BitVec 8
  | .ctime => 0x00 | .clag => 0x01 | .cir => 0x02 | .ctx => 0x03 | .traprec => 0x04 | .mxret => 0x05
  | .ftab => 0x06
  | .tol n => 1#5 ++ n
  | .fij => 0x10
  | .kend n => BitVec.ofNat 8 (0x18 + n.val)

def SysReg.ofCode (n : BitVec 8) : Option SysReg :=
  if n = 0#8 then some .ctime else if n = 1#8 then some .clag else if n = 2#8 then some .cir
  else if n = 3#8 then some .ctx else if n = 4#8 then some .traprec else if n = 5#8 then some .mxret
  else if n = 6#8 then some .ftab else if field n 3 5 = 1#5 then some (.tol (field n 0 3))
  else if n = 0x10#8 then some .fij
  else if n = 0x18#8 then some (.kend 0) else if n = 0x19#8 then some (.kend 1)
  else if n = 0x1A#8 then some (.kend 2) else if n = 0x1B#8 then some (.kend 3)
  else if n = 0x1C#8 then some (.kend 4) else if n = 0x1D#8 then some (.kend 5) else none

/-- Direction and index of a register move (R66, R309). -/
def MPart.code : MPart → BitVec 8
  | .whole => 0
  | .row i => 1#2 ++ i
  | .col j => 2#2 ++ j
  | .diag => 0xC0

def MPart.ofCode (m : BitVec 8) : Option MPart :=
  if field m 6 2 = 1#2 then some (.row (field m 0 6))
  else if field m 6 2 = 2#2 then some (.col (field m 0 6))
  else if m = 0#8 then some .whole else if m = 0xC0#8 then some .diag else none

/-- A source of a product word (R66): two source bits, then the register field. -/
def MSrc.code : MSrc → BitVec 6
  | .ls a => 0#2 ++ a
  | .reg m => 1#2 ++ (0#1 ++ m)

/-- The operand that a source code and a register field name. Bit 3 of the field under source code 1 makes the word illegal as a
field value, reason 6, and not as a register number, reason 5 (R74; DEDUCED, unsafe, log entry 57). -/
def MSrc.ofCode (s : BitVec 2) (r : BitVec 4) : Option MSrc :=
  if s = 0#2 then some (.ls r) else if s = 1#2 ∧ field r 3 1 = 0#1 then some (.reg (field r 0 3)) else none

/-- The destination of a check word from ACC and MR (R309). With MR set, a high bit of ACC makes the word illegal as a field value,
reason 6, and not as an unused bit, reason 4 (R74; DEDUCED, unsafe, log entry 57). -/
def MDest.ofCode (acc : BitVec 6) (mr : Bool) : Option MDest :=
  if mr then (if field acc 3 3 = 0#3 then some (.reg (field acc 0 3)) else none) else some (.bank acc)

def MDest.acc : MDest → BitVec 6
  | .bank b => b
  | .reg m => 0#3 ++ m

def MDest.mr : MDest → BitVec 1
  | .bank _ => 0
  | .reg _ => 1

/-! ## Assembling an instruction from a word whose opcode, function and unused bits are legal -/

/-- The outcome of reading the used fields: a bad specifier or register (reason 5), a bad value (reason 6), or
the instruction. -/
inductive Asm where
  | bad5
  | bad6
  | ok (i : Instr)
  deriving DecidableEq, Repr

/-- A field that must name a register of an accepted class (reason 5). -/
def five {α : Type} (x : Option α) (k : α → Asm) : Asm :=
  match x with
  | some v => k v
  | none => .bad5

/-- A field whose value must be allowed (reason 6). -/
def six {α : Type} (x : Option α) (k : α → Asm) : Asm :=
  match x with
  | some v => k v
  | none => .bad6

/-- The idle count and guard of a word (R56). -/
def headOf (w : IWord) : Head := ⟨field w 78 6, bitAt w 77, field w 72 5⟩

/-- Opcodes 0x01 to 0x12 (R132 to R141). -/
def asmControl (o : Nat) (hd : Head) (w : IWord) : Asm :=
  let reg := field w 64 8
  let tgt := field w 52 12
  let sec := field w 42 10
  if o = 0x01 then .ok (.nop hd)
  else if o = 0x02 then .ok (.idle hd (field w 0 16))
  else if o = 0x03 then .ok (.br hd tgt sec)
  else if o = 0x04 then five (asG reg) fun g => .ok (.brx hd g)
  else if o = 0x05 then five (asG reg) fun g => .ok (.call hd g tgt sec)
  else if o = 0x06 then five (asG reg) fun g => .ok (.ret hd g)
  else if o = 0x07 then
    five (if bitAt w 1 then (asG reg).map SecRef.reg else some (SecRef.num sec)) fun t =>
      match Steered.ofCode (field w 2 2), bitAt w 0 with
      | none, false => .ok (.jsec hd t)
      | none, true => .bad6
      | some c, false => .ok (.jsecSteer hd c t)
      | some c, true => if bitAt w 1 = false ∧ sec = 0#10 then .ok (.jsecPark hd c) else .bad6
  else if o = 0x08 then five (asG reg) fun g => .ok (.loop hd g tgt sec)
  else if o = 0x09 then five (asK reg) fun k => five (asG (field w 34 8)) fun e =>
      .ok (.loopx hd k e (field w 0 16) tgt sec)
  else if o = 0x0A then
    if bitAt w 41 then .ok (.waitt hd (.rel (field w 0 32))) else five (asG reg) fun g => .ok (.waitt hd (.abs g))
  else if o = 0x0B then .ok (.halt hd)
  else if o = 0x0C then .ok (.quiet hd)
  else if o = 0x0D then .ok (.yield hd)
  else if o = 0x0E then five (asG reg) fun g => .ok (.time hd g)
  else if o = 0x0F then five (asG reg) fun g => .ok (.trunk hd g)
  else if o = 0x10 then .ok (.trap hd (field w 0 5))
  else if o = 0x11 then .ok (.eret hd)
  else .ok (.bkpt hd (field w 0 8))

/-- Opcodes 0x13 to 0x1A: system registers, phases and the spill engine (R155, R182, R183, R163). -/
def asmSystem (o : Nat) (hd : Head) (w : IWord) : Asm :=
  let d := field w 64 8
  let s1 := field w 56 8
  if o = 0x13 then five (asG d) fun g => six (SysReg.ofCode (field w 48 8)) fun r => .ok (.mfs hd g r)
  else if o = 0x14 then five (asG s1) fun g => six (SysReg.ofCode (field w 48 8)) fun r => .ok (.mts hd r g)
  else if o = 0x15 then
    if bitAt w 11 then
      .ok (.phdecl hd (field w 52 4) (field w 38 14) (field w 24 14) (field w 19 5) (field w 14 5)
        (bitAt w 13) (bitAt w 12))
    else if field w 11 41 = 0#41 then .ok (.phdeclClear hd (field w 52 4)) else .bad6
  else if o = 0x16 then five (asG d) fun g => .ok (.phsw hd g (field w 0 16))
  else if o = 0x17 then five (asQ d) fun q => five (asA s1) fun a => .ok (.spill hd q a (field w 48 3))
  else if o = 0x18 then five (asQ d) fun q =>
    (match bitAt w 41, bitAt w 40 with
     | true, true => .bad6
     | true, false => if field w 48 3 = 0#3 then .ok (.fillDrop hd q) else .bad6
     | false, k => .ok (.fill hd q (field w 48 3) k))
  else if o = 0x19 then five (asQ s1) fun q => .ok (.qwait hd q)
  else five (asP d) fun p => five (asQ s1) fun q => .ok (.qtest hd p q)

/-- The three-operand integer word of opcode 0x20 with function `f` (R155). -/
def aluOf (f : Nat) (hd : Head) (d : BitVec 5) (a b : Src) : Instr :=
  if f = 0 then .add hd d a b else if f = 1 then .sub hd d a b else if f = 2 then .mul hd d a b
  else if f = 3 then .mulh hd d a b else if f = 4 then .div hd d a b else if f = 5 then .rem hd d a b
  else if f = 6 then .and hd d a b else if f = 7 then .or hd d a b else if f = 8 then .xor hd d a b
  else if f = 9 then .andn hd d a b else if f = 10 then .shl hd d a b else if f = 11 then .shr hd d a b
  else if f = 12 then .sar hd d a b else if f = 13 then .rol hd d a b else if f = 14 then .min hd d a b
  else .max hd d a b

/-- The immediate form of opcode 0x21 with function `f` (R155). -/
def aluImmOf (f : Nat) (hd : Head) (d : BitVec 5) (a : Src) (imm : BitVec 56) : Instr :=
  if f = 0 then .addi hd d a imm else if f = 6 then .andImm hd d a imm else if f = 7 then .orImm hd d a imm
  else if f = 8 then .xorImm hd d a imm else if f = 9 then .andnImm hd d a imm
  else if f = 10 then .shlImm hd d a imm else if f = 11 then .shrImm hd d a imm
  else if f = 12 then .sarImm hd d a imm else if f = 13 then .rolImm hd d a imm
  else if f = 14 then .minImm hd d a imm else .maxImm hd d a imm

/-- The direction of a MOVY (R155): exactly one side is a g register. -/
def movyOf (d s : BitVec 8) : Option MovYOp :=
  match asG d, asY d, asCb d, asG s, asY s, asCb s with
  | none, some y, _, some g, _, _ => some (.yFromG y g)
  | none, _, some c, some g, _, _ => some (.cbFromG c g)
  | some g, _, _, none, some y, _ => some (.gFromY g y)
  | some g, _, _, none, _, some c => some (.gFromCb g c)
  | _, _, _, _, _, _ => none

/-- The direction of a MOVK (R155). -/
def movkOf (d s : BitVec 8) : Option MovKOp :=
  match asG d, asK d, asG s, asK s with
  | none, some k, some g, _ => some (.kFromG k g)
  | some g, _, none, some k => some (.gFromK g k)
  | _, _, _, _ => none

/-- Opcodes 0x20 to 0x2B (R155, R184, R185). -/
def asmScalar (o f : Nat) (hd : Head) (w : IWord) : Asm :=
  let d := field w 64 8
  let s1 := field w 56 8
  let s2 := field w 48 8
  let s3 := field w 40 8
  let imm := field w 0 56
  if o = 0x20 then five (asG d) fun g => five (asSrc s1) fun a => five (asSrc s2) fun b => .ok (aluOf f hd g a b)
  else if o = 0x21 then five (asG d) fun g => five (asSrc s1) fun a => .ok (aluImmOf f hd g a imm)
  else if o = 0x22 then five (asG d) fun g => five (asSrc s1) fun a =>
    .ok (if f = 0 then .clz hd g a else .popc hd g a)
  else if o = 0x23 then five (asG d) fun g => .ok (.ldi hd g imm)
  else if o = 0x24 then five (asG d) fun g => five (asP s1) fun p => five (asSrc s2) fun a =>
    five (asSrc s3) fun b => .ok (.sel hd g p a b)
  else if o = 0x25 then five (asP d) fun p => five (asSrc s1) fun a => five (asSrc s2) fun b =>
    six (Cond.ofCode (field w 36 4)) fun c => .ok (.cmp hd p a b c)
  else if o = 0x26 then
    if f = 3 then five (asP d) fun p => five (asFSrc s1) fun a => five (asFSrc s2) fun b =>
      six (FCond.ofCode (field w 36 4)) fun c => .ok (.fcmps hd p a b c)
    else five (asG d) fun g => five (asFSrc s1) fun a => five (asFSrc s2) fun b =>
      if f = 0 then .ok (.fadds hd g a b) else if f = 1 then .ok (.fmuls hd g a b)
      else if f = 2 then five (asFSrc s3) fun c => .ok (.ffmas hd g a b c)
      else if f = 4 then .ok (.fmins hd g a b) else .ok (.fmaxs hd g a b)
  else if o = 0x27 then five (asA d) fun a =>
    if f = 0 then five (asLeaSrc s1) fun s => .ok (.lea hd a s imm) else .ok (.ainc hd a imm)
  else if o = 0x28 then
    if f = 0 then five (movyOf d s1) fun m => .ok (.movy hd m) else five (movkOf d s1) fun m => .ok (.movk hd m)
  else if o = 0x29 then five (asP d) fun p =>
    if f = 4 then five (asPgSrc s1) fun s => .ok (.pgmov hd p s)
    else five (asP s1) fun a =>
      if f = 3 then .ok (.pgnot hd p a)
      else five (asP s2) fun b =>
        .ok (if f = 0 then .pgand hd p a b else if f = 1 then .pgor hd p a b else .pgxor hd p a b)
  else if o = 0x2A then five (asG d) fun g => five (asA s1) fun a =>
    if f = 0 then .ok (.lds hd g a (field w 54 2) (bitAt w 53) (field w 0 32))
    else if bitAt w 53 then .bad6 else .ok (.sts hd g a (field w 54 2) (field w 0 32))
  else five (asG d) fun g => five (asA s1) fun a => five (asG s2) fun gi =>
    if f = 0 then .ok (.ldsx hd g a gi (field w 38 2) (bitAt w 37) (bitAt w 36))
    else if bitAt w 37 then .bad6 else .ok (.stsx hd g a gi (field w 38 2) (bitAt w 36))

/-- The shared fields of a product word (R309). -/
def prodOf (w : IWord) : Option ProdOps :=
  match MSrc.ofCode (field w 64 2) (field w 60 4), MSrc.ofCode (field w 58 2) (field w 54 4) with
  | some a, some b =>
      some ⟨a, b, field w 50 4, bitAt w 49, field w 46 3, field w 43 3, field w 40 3, field w 34 6, field w 8 24,
        bitAt w 7⟩
  | _, _ => none

/-- Opcodes 0x40 to 0x56 (R282, R309). -/
def asmMatrix (o : Nat) (hd : Head) (w : IWord) : Asm :=
  let acc := field w 66 6
  let m := field w 66 3
  let a := field w 60 4
  let ls : Bool := field w 64 2 = 0#2
  let first := field w 2 6
  let grp := field w 0 2
  let mc := field w 43 3
  let nc := field w 40 3
  if o = 0x40 then six (prodOf w) fun p => .ok (.mma hd acc p)
  else if o = 0x41 then six (prodOf w) fun p => .ok (.mmas hd acc p)
  else if o = 0x42 then six (prodOf w) fun p => .ok (.mmac hd m p)
  else if o = 0x43 then six (MPart.ofCode (field w 0 8)) fun p => if ls then .ok (.mld hd m a p) else .bad6
  else if o = 0x44 then six (MPart.ofCode (field w 0 8)) fun p => if ls then .ok (.mst hd m a p) else .bad6
  else if o = 0x45 then six (MPart.ofCode (field w 0 8)) fun p =>
    six (MSrc.ofCode (field w 64 2) a) fun s => match s with | .reg r => .ok (.mmov hd m r p) | .ls _ => .bad6
  else if o = 0x46 then six (MPart.ofCode (field w 0 8)) fun p => .ok (.mzero hd m p)
  else if o = 0x47 then if ls then .ok (.mdrain hd acc a mc nc first grp) else .bad6
  else if o = 0x48 then six (MDest.ofCode acc (bitAt w 5)) fun d => .ok (.mchk hd d (bitAt w 6))
  else if o = 0x49 then six (MDest.ofCode acc (bitAt w 5)) fun d => .ok (.mloc hd d (field w 0 5))
  else if o = 0x4A then six (MDest.ofCode acc (bitAt w 5)) fun d => .ok (.mfix hd d (field w 0 5))
  else if o = 0x4B then six (MDest.ofCode acc (bitAt w 5)) fun d => .ok (.mretry hd d)
  else if o = 0x4C then if ls then .ok (.mtols hd a) else .bad6
  else if o = 0x50 then .ok (.acalloc hd acc (bitAt w 6) (field w 0 6))
  else if o = 0x51 then .ok (.acfree hd acc (field w 0 6))
  else if o = 0x52 then .ok (.acband hd acc (field w 0 8))
  else if o = 0x53 then if ls then .ok (.acrd hd acc a mc nc first grp) else .bad6
  else if o = 0x54 then if ls then .ok (.acwr hd acc a mc nc first) else .bad6
  else if o = 0x55 then .ok (.aczero hd acc mc nc first)
  else if ls then .ok (.scld hd a (field w 34 6) (field w 0 8)) else .bad6

/-- The fields of a format V body (R65). -/
def vopsOf (w : IWord) : VOps :=
  ⟨field w 60 12, field w 56 4, field w 52 4, field w 40 12, field w 36 4, field w 24 12, field w 20 4, field w 8 12,
    field w 0 8⟩

/-- Opcodes 0x60 to 0x67 and 0xD1 to 0xD6 (R100, R188). -/
def asmVector (o f : Nat) (hd : Head) (w : IWord) : Asm :=
  let v := vopsOf w
  .ok <|
    if o = 0x60 then
      (if f = 0 then .vadd hd v else if f = 1 then .vsub hd v else if f = 2 then .vmul hd v
       else if f = 3 then .vfma hd v else if f = 4 then .vmax hd v else if f = 5 then .vmin hd v
       else if f = 6 then .vabs hd v else if f = 7 then .vneg hd v else .vclamp hd v)
    else if o = 0x61 then
      (if f = 0 then .vrcp hd v else if f = 1 then .vrsqrt hd v else if f = 2 then .vsqrt hd v
       else if f = 3 then .vexp2 hd v else if f = 4 then .vlog2 hd v else .vtanh hd v)
    else if o = 0x62 then
      (if f = 0 then .vrsum hd v else if f = 1 then .vrmax hd v else if f = 2 then .vrmin hd v else .vscan hd v)
    else if o = 0x63 then
      (if f = 0 then .vcmp hd v else if f = 1 then .vsel hd v else if f = 2 then .vcompact hd v
       else if f = 3 then .viota hd v else .vtopk hd v)
    else if o = 0x64 then (if f = 0 then .vgather hd v else if f = 1 then .vbcast hd v else .vmov hd v)
    else if o = 0x65 then
      (if f = 0 then .vand hd v else if f = 1 then .vor hd v else if f = 2 then .vxor hd v
       else if f = 3 then .vshl hd v else .vshr hd v)
    else if o = 0x66 then .vrand hd v
    else if o = 0x67 then .vcbx hd v
    else if o = 0xD1 then .vcvt hd v
    else if o = 0xD2 then .vquant hd v
    else if o = 0xD3 then .vdeq hd v
    else if o = 0xD4 then .vbscl hd v
    else if o = 0xD5 then .vpack hd v
    else .vunpack hd v

/-- Opcodes 0x80 to 0x85 (R288, R293). -/
def asmCodebook (o : Nat) (hd : Head) (w : IWord) : Asm :=
  let d := field w 64 8
  let s1 := field w 56 8
  if o = 0x80 then five (asCb d) fun c => five (asA s1) fun a => .ok (.cbld hd c a (field w 48 8) (field w 41 7))
  else if o = 0x81 then five (asCb d) fun c => .ok (.cbwait hd c)
  else if o = 0x82 then five (asCb d) fun c => five (asA s1) fun a => .ok (.cbsave hd c a)
  else if o = 0x83 then five (asCb d) fun c => .ok (.cbrest hd c)
  else if o = 0x84 then five (asP d) fun p => five (asCb s1) fun c => .ok (.cbchk hd p c)
  else five (asG s1) fun g => .ok (.ftset hd (field w 36 4) g)

/-- The fields that the copy-ins share (R67, R210). -/
def copyOf (w : IWord) : CopyOps :=
  ⟨field w 67 5, field w 63 4, field w 58 5, field w 46 12, field w 30 4, field w 14 16, field w 8 6⟩

/-- Opcodes 0x90 to 0xA3 (R210). -/
def asmCopy (o : Nat) (hd : Head) (w : IWord) : Asm :=
  let h := field w 67 5
  let g := field w 58 5
  let n := field w 46 12
  let tok := field w 0 4
  if o = 0x90 then .ok (.cpin hd (copyOf w))
  else if o = 0x91 then .ok (.cpin2 hd (copyOf w) (field w 34 12) (field w 0 8))
  else if o = 0x92 then .ok (.gather hd (copyOf w) (field w 34 4) (field w 0 8))
  else if o = 0x93 then .ok (.pfetch hd h g n tok)
  else if o = 0x94 then .ok (.pfwait hd g tok)
  else if o = 0x95 then .ok (.pfpin hd h g n tok)
  else if o = 0x96 then .ok (.pfunpin hd h g n)
  else if o = 0x97 then .ok (.discard hd h g n tok)
  else if o = 0x98 then
    if field w 0 2 = 0#2 then .ok (.slotrdEntry hd g (field w 46 4) (field w 34 10))
    else if field w 0 2 = 1#2 then .ok (.slotrdGap hd g (field w 46 4))
    else if field w 0 2 = 2#2 then .ok (.slotrdLat hd g) else .bad6
  else if o = 0xA0 then .ok (.xlate hd h g)
  else if o = 0xA1 then .ok (.hdrop hd h)
  else if o = 0xA2 then .ok (.htest hd g h)
  else .ok (.hmov hd h g)

/-- The fields of a recording patch word (R68). -/
def patchOf (w : IWord) : PatchOps :=
  ⟨field w 67 5, field w 63 4, field w 58 5, field w 50 8, field w 38 12, field w 34 4, field w 29 5, field w 24 5⟩

/-- Opcodes 0xB0 to 0xBA (R249). -/
def asmPatch (o f : Nat) (hd : Head) (w : IWord) : Asm :=
  let h := field w 67 5
  let g2 := field w 29 5
  let g3 := field w 24 5
  let pd := field w 16 5
  let p := patchOf w
  if o = 0xB0 then
    if f = 1 then .ok (.padd hd p (bitAt w 0))
    else if bitAt w 0 then .bad6
    else if f = 0 then .ok (.pst hd p) else if f = 2 then .ok (.pmax hd p) else if f = 3 then .ok (.pmin hd p)
    else if f = 4 then .ok (.pxor hd p) else if f = 5 then .ok (.por hd p) else .ok (.pand hd p)
  else if o = 0xB1 then .ok (.pinv hd h g2)
  else if o = 0xB2 then .ok (.pdrop hd pd h g2)
  else if o = 0xB3 then .ok (.pcomm hd pd h g2 g3)
  else if o = 0xB4 then .ok (.pxpl hd h (field w 58 5) g2 g3)
  else if o = 0xB5 then .ok (.psq hd h)
  else if o = 0xB6 then .ok (.pmrg hd pd h g2 g3)
  else if o = 0xB7 then .ok (.ppub hd (field w 21 3))
  else if o = 0xB8 then .ok (.pwait hd)
  else if o = 0xB9 then .ok (.pname hd g2)
  else if bitAt w 0 then .ok (.psnapOn hd h) else .ok (.psnapOff hd h)

/-- The operand value of a flag word (R270): a zero S means the immediate, any other S needs a zero immediate. -/
def fvalOf (w : IWord) (k : FVal → Asm) : Asm :=
  let s := field w 43 8
  let imm := field w 11 32
  if s = 0#8 then k (.imm imm)
  else five (asFVal s) fun v => if imm = 0#32 then k v else .bad6

/-- Opcodes 0xC0 to 0xCA and 0xE0 (R270, R336 to R345, R364). -/
def asmSync (o : Nat) (hd : Head) (w : IWord) : Asm :=
  let fl := field w 64 8
  let scope := field w 61 3
  let ord := field w 59 2
  let d := field w 51 8
  let s := field w 43 8
  let fo : FOrd := ⟨ord, scope⟩
  if o = 0xC0 then
    if ord = 1#2 then .ok (.fenceAcq hd scope) else if ord = 2#2 then .ok (.fenceRel hd scope)
    else if ord = 3#2 then .ok (.fenceAcqrel hd scope) else .bad6
  else if o = 0xC1 then fvalOf w fun v => .ok (.fset hd fl v fo)
  else if o = 0xC2 then five (asG d) fun g => fvalOf w fun v => .ok (.fadd hd g fl v fo)
  else if o = 0xC3 then five (asG d) fun g => fvalOf w fun v => .ok (.fwait hd g fl v fo)
  else if o = 0xC4 then five (asG d) fun g => .ok (.fget hd g fl fo)
  else if o = 0xC5 then
    if field fl 4 4 = 0#4 then if ord = 2#2 then .ok (.bara hd (field fl 0 4) scope) else .bad6 else .bad5
  else if o = 0xC6 then
    if field fl 4 4 = 0#4 then five (asG d) fun g => fvalOf w fun v =>
      if ord = 1#2 then .ok (.barw hd g (field fl 0 4) v scope) else .bad6
    else .bad5
  else if o = 0xC7 then five (asG d) fun g => five (asA s) fun a => .ok (.kick hd g a (bitAt w 11))
  else if o = 0xC8 then five (asG s) fun g => .ok (.kwait hd g)
  else if o = 0xC9 then five (asG d) fun g => .ok (.swap hd g)
  else if o = 0xCA then .ok (.taskend hd)
  else five (asG d) fun g => .ok (.chkerr hd g (bitAt w 11))

/-- Opcodes 0xD0 and 0xD7 (R98, R99). -/
def asmConvert (o : Nat) (hd : Head) (w : IWord) : Asm :=
  five (asG (field w 64 8)) fun g => five (asFSrc (field w 56 8)) fun s =>
    if o = 0xD0 then .ok (.cvt hd g s (bitAt w 55) (field w 48 5) (field w 40 5) (field w 36 4))
    else .ok (.fclass hd g s (field w 48 5))

/-- Any assigned word. -/
def assemble (o f : Nat) (hd : Head) (w : IWord) : Asm :=
  if o ≤ 0x12 then asmControl o hd w
  else if o ≤ 0x1A then asmSystem o hd w
  else if o ≤ 0x2B then asmScalar o f hd w
  else if o ≤ 0x56 then asmMatrix o hd w
  else if o ≤ 0x67 then asmVector o f hd w
  else if o ≤ 0x85 then asmCodebook o hd w
  else if o ≤ 0xA3 then asmCopy o hd w
  else if o ≤ 0xBA then asmPatch o f hd w
  else if o ≤ 0xCA ∨ o = 0xE0 then asmSync o hd w
  else if o = 0xD0 ∨ o = 0xD7 then asmConvert o hd w
  else asmVector o f hd w

/-- The decoder (R72 to R74) without the check of the section's kind, in the order of R74's table. `kindOk` says
whether the open section may hold the opcode (reason 3). -/
def decodeChecked (kindOk : Nat → Bool) (w : IWord) : Except DecodeFault Instr :=
  let o := fieldN w 88 8
  let f := fieldN w 84 4
  if w = 0#96 then .error .zeroWord
  else if opFns o = 0 then .error (.illegal 1 o f 0)
  else if (opFns o).testBit f = false then .error (.illegal 2 o f 0)
  else if kindOk o = false then .error (.illegal 3 o f 0)
  else
    match strayBit (usedFields o f w) w with
    | some b => .error (.illegal 4 o f b)
    | none =>
        match assemble o f (headOf w) w with
        | .bad5 => .error (.illegal 5 o f 0)
        | .bad6 => .error (.illegal 6 o f 0)
        | .ok i => if i.wf then .ok i else .error (.illegal 6 o f 0)

/-- What a cluster reads from a word of its open section (R72). -/
def decodeFor (c : Cluster) (w : IWord) : Except DecodeFault Instr := decodeChecked (fun o => opCluster o c) w

/-- What a word is, in a section of a kind that may hold it. -/
def decodeWord (w : IWord) : Except DecodeFault Instr := decodeChecked (fun _ => true) w

/-! ## The encoder -/

/-- Body of format A (R63). -/
def bodyA (d s1 s2 s3 : BitVec 8) (cond : BitVec 4) : BitVec 72 := d ++ s1 ++ s2 ++ s3 ++ cond ++ 0#36

/-- Body of format I (R63). -/
def bodyI (d s1 : BitVec 8) (imm : BitVec 56) : BitVec 72 := d ++ s1 ++ imm

/-- Body of format B (R64). -/
def bodyB (reg : BitVec 8) (tgt : BitVec 12) (sec : BitVec 10) (imm : BitVec 42) : BitVec 72 :=
  reg ++ tgt ++ sec ++ imm

/-- Body of format V (R65). -/
def bodyV (v : VOps) : BitVec 72 := v.cnt ++ v.ef ++ v.da ++ v.ds ++ v.aa ++ v.as ++ v.ba ++ v.bs ++ v.mod

/-- Body of format X (R66); a source is its two code bits and its register. -/
def bodyX (acc : BitVec 6) (a b : BitVec 6) (ft : BitVec 4) (ftk : BitVec 1) (ksel mc nc : BitVec 3)
    (kc : BitVec 6) (stamp : BitVec 24) (mod : BitVec 8) : BitVec 72 :=
  acc ++ a ++ b ++ ft ++ ftk ++ ksel ++ mc ++ nc ++ kc ++ 0#2 ++ stamp ++ mod

/-- Body of a format X word that uses no source B, no format entry, no K and no stamp. -/
def bodyX0 (acc a : BitVec 6) (mc nc : BitVec 3) (mod : BitVec 8) : BitVec 72 :=
  bodyX acc a 0 0 0 0 mc nc 0 0 mod

/-- Body of a product word (R309). -/
def bodyProd (acc : BitVec 6) (p : ProdOps) : BitVec 72 :=
  bodyX acc p.a.code p.b.code p.ft (bit1 p.ftk) p.ksel p.mcode p.ncode p.kcode p.stamp (bit1 p.rel ++ 0#7)

/-- Body of format C (R67). -/
def bodyC (h : BitVec 5) (a : BitVec 4) (goff : BitVec 5) (count pitch : BitVec 12) (region : BitVec 4)
    (tag : BitVec 16) (depth : BitVec 6) (mod : BitVec 8) : BitVec 72 :=
  h ++ a ++ goff ++ count ++ pitch ++ region ++ tag ++ depth ++ mod

/-- Body of a copy-in (R210). -/
def bodyCopy (o : CopyOps) (pitch : BitVec 12) (mod : BitVec 8) : BitVec 72 :=
  bodyC o.h o.a o.goff o.count pitch o.region o.tag o.depth mod

/-- Body of format P (R68). -/
def bodyP (h : BitVec 5) (a : BitVec 4) (goff : BitVec 5) (rows : BitVec 8) (rowlen : BitVec 12) (ef : BitVec 4)
    (g2 g3 : BitVec 5) (scope : BitVec 3) (pd : BitVec 5) (mod : BitVec 8) : BitVec 72 :=
  h ++ a ++ goff ++ rows ++ rowlen ++ ef ++ g2 ++ g3 ++ scope ++ pd ++ 0#8 ++ mod

/-- Body of a recording patch word (R249). -/
def bodyPatch (o : PatchOps) (mod : BitVec 8) : BitVec 72 :=
  bodyP o.h o.a o.goff o.rows o.rowlen o.ef o.g2 o.g3 0 0 mod

/-- Body of format Y (R69). -/
def bodyY (flag : BitVec 8) (scope : BitVec 3) (ord : BitVec 2) (d s : BitVec 8) (imm : BitVec 32) : BitVec 72 :=
  flag ++ scope ++ ord ++ d ++ s ++ imm ++ 0#11

/-- A word from its parts (R56). -/
def word (opc : BitVec 8) (fn : BitVec 4) (hd : Head) (body : BitVec 72) : IWord :=
  opc ++ fn ++ hd.idle ++ bit1 hd.neg ++ hd.psel ++ body

/-- SecRef as the REG, SEC and number-from-g bits of JSEC (R132). -/
def SecRef.parts : SecRef → BitVec 8 × BitVec 10 × BitVec 1
  | .num n => (0, n, 0)
  | .reg g => (specG g, 0, 1)

/-- The IMM field of JSEC (R132). -/
def jsecImm (c : BitVec 2) (r p : BitVec 1) : BitVec 42 := 0#38 ++ c ++ r ++ p

/-- The word of an instruction; `none` for an event. -/
def encode : Instr → Option IWord
  | .nop hd => some (word 0x01 0 hd 0)
  | .idle hd n => some (word 0x02 0 hd (bodyB 0 0 0 (0#26 ++ n)))
  | .br hd t s => some (word 0x03 0 hd (bodyB 0 t s 0))
  | .brx hd g => some (word 0x04 0 hd (bodyB (specG g) 0 0 0))
  | .call hd g t s => some (word 0x05 0 hd (bodyB (specG g) t s 0))
  | .ret hd g => some (word 0x06 0 hd (bodyB (specG g) 0 0 0))
  | .jsec hd t => some (word 0x07 0 hd (bodyB t.parts.1 0 t.parts.2.1 (jsecImm 0 t.parts.2.2 0)))
  | .jsecSteer hd c t => some (word 0x07 0 hd (bodyB t.parts.1 0 t.parts.2.1 (jsecImm c.code t.parts.2.2 0)))
  | .jsecPark hd c => some (word 0x07 0 hd (bodyB 0 0 0 (jsecImm c.code 0 1)))
  | .loop hd g t s => some (word 0x08 0 hd (bodyB (specG g) t s 0))
  | .loopx hd k e st t s => some (word 0x09 0 hd (bodyB (specK k) t s (specG e ++ 0#18 ++ st)))
  | .waitt hd (.abs g) => some (word 0x0A 0 hd (bodyB (specG g) 0 0 0))
  | .waitt hd (.rel n) => some (word 0x0A 0 hd (bodyB 0 0 0 (1#1 ++ 0#9 ++ n)))
  | .halt hd => some (word 0x0B 0 hd 0)
  | .quiet hd => some (word 0x0C 0 hd 0)
  | .yield hd => some (word 0x0D 0 hd 0)
  | .time hd g => some (word 0x0E 0 hd (bodyB (specG g) 0 0 0))
  | .trunk hd g => some (word 0x0F 0 hd (bodyB (specG g) 0 0 0))
  | .trap hd n => some (word 0x10 0 hd (bodyB 0 0 0 (0#37 ++ n)))
  | .eret hd => some (word 0x11 0 hd 0)
  | .bkpt hd t => some (word 0x12 0 hd (bodyB 0 0 0 (0#34 ++ t)))
  | .mfs hd g r => some (word 0x13 0 hd (bodyA (specG g) 0 r.code 0 0))
  | .mts hd r g => some (word 0x14 0 hd (bodyA 0 (specG g) r.code 0 0))
  | .phdecl hd ix b s rd wr db tag =>
      some (word 0x15 0 hd (bodyI 0 0 (ix ++ b ++ s ++ rd ++ wr ++ bit1 db ++ bit1 tag ++ 1#1 ++ 0#11)))
  | .phdeclClear hd ix => some (word 0x15 0 hd (bodyI 0 0 (ix ++ 0#52)))
  | .phsw hd g t => some (word 0x16 0 hd (bodyI (specG g) 0 (0#40 ++ t)))
  | .spill hd q a m => some (word 0x17 0 hd (bodyA (specQ q) (specA a) (0#5 ++ m) 0 0))
  | .fill hd q m k => some (word 0x18 0 hd (bodyA (specQ q) 0 (0#5 ++ m) (0#7 ++ bit1 k) 0))
  | .fillDrop hd q => some (word 0x18 0 hd (bodyA (specQ q) 0 0 2 0))
  | .qwait hd q => some (word 0x19 0 hd (bodyA 0 (specQ q) 0 0 0))
  | .qtest hd p q => some (word 0x1A 0 hd (bodyA (specP p) (specQ q) 0 0 0))
  | .add hd d a b => some (word 0x20 0 hd (bodyA (specG d) a.spec b.spec 0 0))
  | .sub hd d a b => some (word 0x20 1 hd (bodyA (specG d) a.spec b.spec 0 0))
  | .mul hd d a b => some (word 0x20 2 hd (bodyA (specG d) a.spec b.spec 0 0))
  | .mulh hd d a b => some (word 0x20 3 hd (bodyA (specG d) a.spec b.spec 0 0))
  | .div hd d a b => some (word 0x20 4 hd (bodyA (specG d) a.spec b.spec 0 0))
  | .rem hd d a b => some (word 0x20 5 hd (bodyA (specG d) a.spec b.spec 0 0))
  | .and hd d a b => some (word 0x20 6 hd (bodyA (specG d) a.spec b.spec 0 0))
  | .or hd d a b => some (word 0x20 7 hd (bodyA (specG d) a.spec b.spec 0 0))
  | .xor hd d a b => some (word 0x20 8 hd (bodyA (specG d) a.spec b.spec 0 0))
  | .andn hd d a b => some (word 0x20 9 hd (bodyA (specG d) a.spec b.spec 0 0))
  | .shl hd d a b => some (word 0x20 10 hd (bodyA (specG d) a.spec b.spec 0 0))
  | .shr hd d a b => some (word 0x20 11 hd (bodyA (specG d) a.spec b.spec 0 0))
  | .sar hd d a b => some (word 0x20 12 hd (bodyA (specG d) a.spec b.spec 0 0))
  | .rol hd d a b => some (word 0x20 13 hd (bodyA (specG d) a.spec b.spec 0 0))
  | .min hd d a b => some (word 0x20 14 hd (bodyA (specG d) a.spec b.spec 0 0))
  | .max hd d a b => some (word 0x20 15 hd (bodyA (specG d) a.spec b.spec 0 0))
  | .addi hd d a m => some (word 0x21 0 hd (bodyI (specG d) a.spec m))
  | .andImm hd d a m => some (word 0x21 6 hd (bodyI (specG d) a.spec m))
  | .orImm hd d a m => some (word 0x21 7 hd (bodyI (specG d) a.spec m))
  | .xorImm hd d a m => some (word 0x21 8 hd (bodyI (specG d) a.spec m))
  | .andnImm hd d a m => some (word 0x21 9 hd (bodyI (specG d) a.spec m))
  | .shlImm hd d a m => some (word 0x21 10 hd (bodyI (specG d) a.spec m))
  | .shrImm hd d a m => some (word 0x21 11 hd (bodyI (specG d) a.spec m))
  | .sarImm hd d a m => some (word 0x21 12 hd (bodyI (specG d) a.spec m))
  | .rolImm hd d a m => some (word 0x21 13 hd (bodyI (specG d) a.spec m))
  | .minImm hd d a m => some (word 0x21 14 hd (bodyI (specG d) a.spec m))
  | .maxImm hd d a m => some (word 0x21 15 hd (bodyI (specG d) a.spec m))
  | .clz hd d a => some (word 0x22 0 hd (bodyA (specG d) a.spec 0 0 0))
  | .popc hd d a => some (word 0x22 1 hd (bodyA (specG d) a.spec 0 0 0))
  | .ldi hd d m => some (word 0x23 0 hd (bodyI (specG d) 0 m))
  | .sel hd d p a b => some (word 0x24 0 hd (bodyA (specG d) (specP p) a.spec b.spec 0))
  | .cmp hd p a b c => some (word 0x25 0 hd (bodyA (specP p) a.spec b.spec 0 c.code))
  | .fadds hd d a b => some (word 0x26 0 hd (bodyA (specG d) a.spec b.spec 0 0))
  | .fmuls hd d a b => some (word 0x26 1 hd (bodyA (specG d) a.spec b.spec 0 0))
  | .ffmas hd d a b c => some (word 0x26 2 hd (bodyA (specG d) a.spec b.spec c.spec 0))
  | .fcmps hd p a b c => some (word 0x26 3 hd (bodyA (specP p) a.spec b.spec 0 c.code))
  | .fmins hd d a b => some (word 0x26 4 hd (bodyA (specG d) a.spec b.spec 0 0))
  | .fmaxs hd d a b => some (word 0x26 5 hd (bodyA (specG d) a.spec b.spec 0 0))
  | .lea hd a s m => some (word 0x27 0 hd (bodyI (specA a) s.spec m))
  | .ainc hd a m => some (word 0x27 1 hd (bodyI (specA a) 0 m))
  | .movy hd (.yFromG y g) => some (word 0x28 0 hd (bodyA (specY y) (specG g) 0 0 0))
  | .movy hd (.cbFromG c g) => some (word 0x28 0 hd (bodyA (specCb c) (specG g) 0 0 0))
  | .movy hd (.gFromY g y) => some (word 0x28 0 hd (bodyA (specG g) (specY y) 0 0 0))
  | .movy hd (.gFromCb g c) => some (word 0x28 0 hd (bodyA (specG g) (specCb c) 0 0 0))
  | .movk hd (.kFromG k g) => some (word 0x28 1 hd (bodyA (specK k) (specG g) 0 0 0))
  | .movk hd (.gFromK g k) => some (word 0x28 1 hd (bodyA (specG g) (specK k) 0 0 0))
  | .pgand hd d a b => some (word 0x29 0 hd (bodyA (specP d) (specP a) (specP b) 0 0))
  | .pgor hd d a b => some (word 0x29 1 hd (bodyA (specP d) (specP a) (specP b) 0 0))
  | .pgxor hd d a b => some (word 0x29 2 hd (bodyA (specP d) (specP a) (specP b) 0 0))
  | .pgnot hd d a => some (word 0x29 3 hd (bodyA (specP d) (specP a) 0 0 0))
  | .pgmov hd d s => some (word 0x29 4 hd (bodyA (specP d) s.spec 0 0 0))
  | .lds hd g a sz sx off => some (word 0x2A 0 hd (bodyI (specG g) (specA a) (sz ++ bit1 sx ++ 0#21 ++ off)))
  | .sts hd g a sz off => some (word 0x2A 1 hd (bodyI (specG g) (specA a) (sz ++ 0#1 ++ 0#21 ++ off)))
  | .ldsx hd g a gi sz sx sc =>
      some (word 0x2B 0 hd (bodyA (specG g) (specA a) (specG gi) 0 (sz ++ bit1 sx ++ bit1 sc)))
  | .stsx hd g a gi sz sc => some (word 0x2B 1 hd (bodyA (specG g) (specA a) (specG gi) 0 (sz ++ 0#1 ++ bit1 sc)))
  | .mma hd acc o => some (word 0x40 0 hd (bodyProd acc o))
  | .mmas hd acc o => some (word 0x41 0 hd (bodyProd acc o))
  | .mmac hd m o => some (word 0x42 0 hd (bodyProd (0#3 ++ m) o))
  | .mld hd m a p => some (word 0x43 0 hd (bodyX0 (0#3 ++ m) (0#2 ++ a) 0 0 p.code))
  | .mst hd m a p => some (word 0x44 0 hd (bodyX0 (0#3 ++ m) (0#2 ++ a) 0 0 p.code))
  | .mmov hd d s p => some (word 0x45 0 hd (bodyX0 (0#3 ++ d) (MSrc.reg s).code 0 0 p.code))
  | .mzero hd m p => some (word 0x46 0 hd (bodyX0 (0#3 ++ m) 0 0 0 p.code))
  | .mdrain hd acc a mc nc f g => some (word 0x47 0 hd (bodyX0 acc (0#2 ++ a) mc nc (f ++ g)))
  | .mchk hd d n => some (word 0x48 0 hd (bodyX0 d.acc 0 0 0 (0#1 ++ bit1 n ++ d.mr ++ 0#5)))
  | .mloc hd d g => some (word 0x49 0 hd (bodyX0 d.acc 0 0 0 (0#2 ++ d.mr ++ g)))
  | .mfix hd d g => some (word 0x4A 0 hd (bodyX0 d.acc 0 0 0 (0#2 ++ d.mr ++ g)))
  | .mretry hd d => some (word 0x4B 0 hd (bodyX0 d.acc 0 0 0 (0#2 ++ d.mr ++ 0#5)))
  | .mtols hd a => some (word 0x4C 0 hd (bodyX0 0 (0#2 ++ a) 0 0 0))
  | .acalloc hd acc z n => some (word 0x50 0 hd (bodyX0 acc 0 0 0 (0#1 ++ bit1 z ++ n)))
  | .acfree hd acc n => some (word 0x51 0 hd (bodyX0 acc 0 0 0 (0#2 ++ n)))
  | .acband hd acc o => some (word 0x52 0 hd (bodyX0 acc 0 0 0 o))
  | .acrd hd acc a mc nc f g => some (word 0x53 0 hd (bodyX0 acc (0#2 ++ a) mc nc (f ++ g)))
  | .acwr hd acc a mc nc f => some (word 0x54 0 hd (bodyX0 acc (0#2 ++ a) mc nc (f ++ 0#2)))
  | .aczero hd acc mc nc f => some (word 0x55 0 hd (bodyX0 acc 0 mc nc (f ++ 0#2)))
  | .scld hd a kc off => some (word 0x56 0 hd (bodyX 0 (0#2 ++ a) 0 0 0 0 0 0 kc 0 off))
  | .vadd hd v => some (word 0x60 0 hd (bodyV v))
  | .vsub hd v => some (word 0x60 1 hd (bodyV v))
  | .vmul hd v => some (word 0x60 2 hd (bodyV v))
  | .vfma hd v => some (word 0x60 3 hd (bodyV v))
  | .vmax hd v => some (word 0x60 4 hd (bodyV v))
  | .vmin hd v => some (word 0x60 5 hd (bodyV v))
  | .vabs hd v => some (word 0x60 6 hd (bodyV v))
  | .vneg hd v => some (word 0x60 7 hd (bodyV v))
  | .vclamp hd v => some (word 0x60 8 hd (bodyV v))
  | .vrcp hd v => some (word 0x61 0 hd (bodyV v))
  | .vrsqrt hd v => some (word 0x61 1 hd (bodyV v))
  | .vsqrt hd v => some (word 0x61 2 hd (bodyV v))
  | .vexp2 hd v => some (word 0x61 3 hd (bodyV v))
  | .vlog2 hd v => some (word 0x61 4 hd (bodyV v))
  | .vtanh hd v => some (word 0x61 5 hd (bodyV v))
  | .vrsum hd v => some (word 0x62 0 hd (bodyV v))
  | .vrmax hd v => some (word 0x62 1 hd (bodyV v))
  | .vrmin hd v => some (word 0x62 2 hd (bodyV v))
  | .vscan hd v => some (word 0x62 3 hd (bodyV v))
  | .vcmp hd v => some (word 0x63 0 hd (bodyV v))
  | .vsel hd v => some (word 0x63 1 hd (bodyV v))
  | .vcompact hd v => some (word 0x63 2 hd (bodyV v))
  | .viota hd v => some (word 0x63 3 hd (bodyV v))
  | .vtopk hd v => some (word 0x63 4 hd (bodyV v))
  | .vgather hd v => some (word 0x64 0 hd (bodyV v))
  | .vbcast hd v => some (word 0x64 1 hd (bodyV v))
  | .vmov hd v => some (word 0x64 2 hd (bodyV v))
  | .vand hd v => some (word 0x65 0 hd (bodyV v))
  | .vor hd v => some (word 0x65 1 hd (bodyV v))
  | .vxor hd v => some (word 0x65 2 hd (bodyV v))
  | .vshl hd v => some (word 0x65 3 hd (bodyV v))
  | .vshr hd v => some (word 0x65 4 hd (bodyV v))
  | .vrand hd v => some (word 0x66 0 hd (bodyV v))
  | .vcbx hd v => some (word 0x67 0 hd (bodyV v))
  | .cbld hd c a n e => some (word 0x80 0 hd (bodyI (specCb c) (specA a) (n ++ e ++ 0#41)))
  | .cbwait hd c => some (word 0x81 0 hd (bodyI (specCb c) 0 0))
  | .cbsave hd c a => some (word 0x82 0 hd (bodyI (specCb c) (specA a) 0))
  | .cbrest hd c => some (word 0x83 0 hd (bodyI (specCb c) 0 0))
  | .cbchk hd p c => some (word 0x84 0 hd (bodyI (specP p) (specCb c) 0))
  | .ftset hd n g => some (word 0x85 0 hd (bodyA 0 (specG g) 0 0 n))
  | .cpin hd o => some (word 0x90 0 hd (bodyCopy o 0 0))
  | .cpin2 hd o p r => some (word 0x91 0 hd (bodyCopy o p r))
  | .gather hd o l r => some (word 0x92 0 hd (bodyCopy o (0#8 ++ l) r))
  | .pfetch hd h g n t => some (word 0x93 0 hd (bodyC h 0 g n 0 0 0 0 (0#4 ++ t)))
  | .pfwait hd g t => some (word 0x94 0 hd (bodyC 0 0 g 0 0 0 0 0 (0#4 ++ t)))
  | .pfpin hd h g n t => some (word 0x95 0 hd (bodyC h 0 g n 0 0 0 0 (0#4 ++ t)))
  | .pfunpin hd h g n => some (word 0x96 0 hd (bodyC h 0 g n 0 0 0 0 0))
  | .discard hd h g n t => some (word 0x97 0 hd (bodyC h 0 g n 0 0 0 0 (0#4 ++ t)))
  | .slotrdEntry hd g gr sl => some (word 0x98 0 hd (bodyC 0 0 g (0#8 ++ gr) (0#2 ++ sl) 0 0 0 0))
  | .slotrdGap hd g gr => some (word 0x98 0 hd (bodyC 0 0 g (0#8 ++ gr) 0 0 0 0 1))
  | .slotrdLat hd g => some (word 0x98 0 hd (bodyC 0 0 g 0 0 0 0 0 2))
  | .xlate hd h g => some (word 0xA0 0 hd (bodyC h 0 g 0 0 0 0 0 0))
  | .hdrop hd h => some (word 0xA1 0 hd (bodyC h 0 0 0 0 0 0 0 0))
  | .htest hd g h => some (word 0xA2 0 hd (bodyC h 0 g 0 0 0 0 0 0))
  | .hmov hd d s => some (word 0xA3 0 hd (bodyC d 0 s 0 0 0 0 0 0))
  | .pst hd o => some (word 0xB0 0 hd (bodyPatch o 0))
  | .padd hd o sat => some (word 0xB0 1 hd (bodyPatch o (0#7 ++ bit1 sat)))
  | .pmax hd o => some (word 0xB0 2 hd (bodyPatch o 0))
  | .pmin hd o => some (word 0xB0 3 hd (bodyPatch o 0))
  | .pxor hd o => some (word 0xB0 4 hd (bodyPatch o 0))
  | .por hd o => some (word 0xB0 5 hd (bodyPatch o 0))
  | .pand hd o => some (word 0xB0 6 hd (bodyPatch o 0))
  | .pinv hd h n => some (word 0xB1 0 hd (bodyP h 0 0 0 0 0 n 0 0 0 0))
  | .pdrop hd p h n => some (word 0xB2 0 hd (bodyP h 0 0 0 0 0 n 0 0 p 0))
  | .pcomm hd p h a b => some (word 0xB3 0 hd (bodyP h 0 0 0 0 0 a b 0 p 0))
  | .pxpl hd h g n s => some (word 0xB4 0 hd (bodyP h 0 g 0 0 0 n s 0 0 0))
  | .psq hd h => some (word 0xB5 0 hd (bodyP h 0 0 0 0 0 0 0 0 0 0))
  | .pmrg hd p h a b => some (word 0xB6 0 hd (bodyP h 0 0 0 0 0 a b 0 p 0))
  | .ppub hd s => some (word 0xB7 0 hd (bodyP 0 0 0 0 0 0 0 0 s 0 0))
  | .pwait hd => some (word 0xB8 0 hd 0)
  | .pname hd g => some (word 0xB9 0 hd (bodyP 0 0 0 0 0 0 g 0 0 0 0))
  | .psnapOn hd h => some (word 0xBA 0 hd (bodyP h 0 0 0 0 0 0 0 0 0 1))
  | .psnapOff hd h => some (word 0xBA 0 hd (bodyP h 0 0 0 0 0 0 0 0 0 0))
  | .fenceAcq hd s => some (word 0xC0 0 hd (bodyY 0 s 1 0 0 0))
  | .fenceRel hd s => some (word 0xC0 0 hd (bodyY 0 s 2 0 0 0))
  | .fenceAcqrel hd s => some (word 0xC0 0 hd (bodyY 0 s 3 0 0 0))
  | .fset hd f v o => some (word 0xC1 0 hd (bodyY f o.scope o.ord 0 v.spec v.immBits))
  | .fadd hd g f v o => some (word 0xC2 0 hd (bodyY f o.scope o.ord (specG g) v.spec v.immBits))
  | .fwait hd g f v o => some (word 0xC3 0 hd (bodyY f o.scope o.ord (specG g) v.spec v.immBits))
  | .fget hd g f o => some (word 0xC4 0 hd (bodyY f o.scope o.ord (specG g) 0 0))
  | .bara hd b s => some (word 0xC5 0 hd (bodyY (0#4 ++ b) s 2 0 0 0))
  | .barw hd g b v s => some (word 0xC6 0 hd (bodyY (0#4 ++ b) s 1 (specG g) v.spec v.immBits))
  | .kick hd g a c => some (word 0xC7 0 hd (bodyY 0 0 0 (specG g) (specA a) (0#31 ++ bit1 c)))
  | .kwait hd g => some (word 0xC8 0 hd (bodyY 0 0 0 0 (specG g) 0))
  | .swap hd g => some (word 0xC9 0 hd (bodyY 0 0 0 (specG g) 0 0))
  | .taskend hd => some (word 0xCA 0 hd 0)
  | .cvt hd d s sat sf df m =>
      some (word 0xD0 0 hd (specG d ++ s.spec ++ bit1 sat ++ 0#2 ++ sf ++ 0#3 ++ df ++ m ++ 0#36))
  | .fclass hd d s f => some (word 0xD7 0 hd (specG d ++ s.spec ++ 0#3 ++ f ++ 0#48))
  | .vcvt hd v => some (word 0xD1 0 hd (bodyV v))
  | .vquant hd v => some (word 0xD2 0 hd (bodyV v))
  | .vdeq hd v => some (word 0xD3 0 hd (bodyV v))
  | .vbscl hd v => some (word 0xD4 0 hd (bodyV v))
  | .vpack hd v => some (word 0xD5 0 hd (bodyV v))
  | .vunpack hd v => some (word 0xD6 0 hd (bodyV v))
  | .chkerr hd g c => some (word 0xE0 0 hd (bodyY 0 0 0 (specG g) 0 (0#31 ++ bit1 c)))
  | _ => none

/-- The host's view of the decoder: `w` holds the word's bits, bit 0 the lowest bit of its first byte. An instruction
is 12 bytes (R56), so bits beyond the first 96 belong to no word, and missing high bits are 0. -/
def decodeTableWord (_nbits w : Nat) : Option Instr :=
  match decodeWord (BitVec.ofNat 96 w) with
  | .ok i => some i
  | .error _ => none

end Sys2Proof
end

