-- ==== Sys2Proof/Config.lean ====
section
/-! DEFINITION. The fixed sizes of the part, and the free values: what the manual leaves open. A free value is a
constant without a body, so a statement about it holds whatever it is. -/

namespace Sys2Proof.Config

/-! ## Sizes (R12, R13, R17) -/

/-- Bytes of a core's local store (R12, R170). -/
def lsBytes : Nat := 4 * 1024 * 1024

/-- Bytes of one configuration plane (R12, R45). -/
def planeBytes : Nat := 256 * 1024

/-- Bytes of scale memory (R286). -/
def scaleBytes : Nat := 65536

/-- Bytes of one accumulator bank or one matrix register (R12, R278). -/
def tileBytes : Nat := 16384

/-- Slots of a drawer link frame (R17). -/
def frameSlots : Nat := 1024

/-- Default drawer read latency in slots (R17). -/
def defaultLatency : Nat := 256

/-- Trunk cycles after which a swapped phase is final (R181). -/
def finality : Nat := 600

/-- Records of a die's fault buffer (R355). -/
def faultBufferSize : Nat := 512

/-- Entries of a die's kick pool (R341). -/
def kickPoolSize : Nat := 2048

/-- Kick-pool entries kept for completion-critical kicks (R341). -/
def kickReserve : Nat := 128

/-- Largest patch data area of a die's canopy SRAM (R13). -/
def patchAreaMost : Nat := 256 * 1024 * 1024

/-- Canopy SRAM of a compute die, LPDDR-6 of the package, and the most that the root drawer holds (R10, R13). -/
def canopyBytes : Nat := 384 * 1024 * 1024
def lpddrBytes : Nat := 2 ^ 40
def drawerBytes : Nat := 2 ^ 46

/-- Patch records of one graft slice (R242). -/
def sliceRecords : Nat := 512 * 1024

/-- Descriptors of one graft slice (R228). -/
def sliceDescs : Nat := 16384

/-! ## Free values

Each is a DESIGN CHOICE, and safe: no proof can see it (log entries 9 to 11, 22 and 24). -/

/-- How many trunk cycles after the start of copy command `n` its granule `k` is read, if the command has not
completed before (R264). -/
opaque readPoint : Nat → Nat → Nat

/-- Cycles by which the home slice's other traffic makes copy command `n` later (R213). -/
opaque sliceTraffic : Nat → Nat

/-- Trunk cycles beyond the minimum of R245 after which patch operation `n` reaches its home slice. -/
opaque patchDelay : Nat → Nat

/-- Trunk cycles that the crown scheduler takes to install a translation entry (R204). -/
opaque installDelay : Nat → Nat

/-- Trunk cycles that a prefetch, pin or discard operation takes (R222, R223). -/
opaque prefetchDelay : Nat → Nat

/-- Where the slots of the link frames stand against the cycles of real time, in thirty-fifths of a slot's 304 (R17). -/
opaque slotPhase : Nat

/-- Trunk cycles that the crown scheduler takes to answer kick `n` (R340). -/
opaque kickDelay : Nat → Nat

/-- Trunk cycles for which the core stays frozen while the crown scheduler handles interrupt `n` (R128). -/
opaque interruptDelay : Nat → Nat

/-- Trunk cycles that a context save or restore takes (R358). -/
opaque saveDelay : Nat → Nat

/-- Trunk cycles that the loader takes to fill a shadow plane (R339) or to rewrite a word (R368). -/
opaque loadDelay : Nat → Nat

/-- Trunk cycles by which a retirement follows the release that ends its task (R336). -/
opaque retireDelay : Nat → Nat

/-- Trunk cycles between two granules of the checkpoint copy (R378). -/
opaque checkpointDelay : Nat → Nat

/-- Trunk cycles until the standby crown core has taken over (R346). -/
opaque takeoverDelay : Nat → Nat

/-- CIR of a task that retires on a core that is not modelled word by word (R366). -/
opaque otherCir : Nat → BitVec 64

/-- Trunk cycles that a dispatch decision of the crown scheduler takes (R334). -/
opaque dispatchDelay : Nat → Nat

/-- The slot tables that the crown scheduler sets when the core changes its context (R217): its `n`-th choice, from the
tables as they stand; none leaves them. -/
opaque newSlots : Nat → List (Nat × Nat × BitVec 32) → Option (List (Nat × Nat × BitVec 32))

/-- Whether the crown scheduler pre-empts the context at its quiet point `n` in answer to YIELD (R130). -/
opaque yieldPreempts : Nat → Bool

/-- Whether a core other than the issuer has read the record that replay `n` replaces (R374). -/
opaque readElsewhere : Nat → Bool

/-- The value beneath a folded record, of a tensor and a name, at an element: the store keeps it no more (R239, R254). -/
opaque foldedPrior : BitVec 24 → Word → Nat → Nat

/-- Cycles by which the home slice stretches the request phase of copy command `n` while it composes chains (R209). -/
opaque requestStretch : Nat → Nat

/-- What a peer device answers to a patch of this device, by tensor, name and digest: 0 accepted, else one of the refusals of
R244, R261 and R384 or a stall of R241 and R242, with its reason and second name. -/
opaque peerAnswer : BitVec 24 → Word → Word → Nat × Nat × Word

/-- How many trunk cycles operation packet `n` takes (R245), and how many more a peer's slice holds its patch. -/
opaque peerDelay : Nat → Nat
opaque peerHold : Nat → Nat

/-- Trunk cycles after which the crown scheduler copies fault record `n` to the host (R355). -/
opaque copyDelay : Nat → Nat

/-- Bytes of a save area, which R358 gives no size. -/
opaque saveBytes : Nat

/-- The patches that a task on another core has observed when it retires with free value `n` (R267, R336). -/
opaque otherObserved : Nat → List (Nat × Word)

/-- Whether the crown scheduler has set up a checkpoint area for a tenant (R378). -/
opaque checkpointArea : BitVec 4 → Bool

/-- The keys that a tenant trusts for checkpoints (R381). -/
opaque trustedKeys : BitVec 4 → List (List Byte)

/-- The SHA-256 of Nolsol's root key as the boot ROM holds it, and the key for configuration records that stage 2's image
names (R390). -/
opaque rootKeyHash : BitVec 256
opaque recordKey : List Byte → List Byte

/-- The bytes of a configuration record that its digest and signature cover, from its length, version and body: R391 gives no
layout. -/
opaque recordBytes : Nat → Nat → RecordBody → List Byte

/-- The 64-bit digest of a patch or kick record, as a function of the numbers that describe it (R243). -/
opaque digest : List Nat → Word

/-- What a bank reloads from a CONFIG section of the active plane where that section does not exist or holds too few bytes: plane, section
and byte (R296, R297; log entry 91). -/
opaque absentPreload : List Byte → Nat → Nat → Byte

/-- SHA-256, which the manual names and does not define (R379, R380, R390). -/
opaque sha256 : List Byte → BitVec 256

/-- ECDSA P-256 with a key over a SHA-256: verification (R381, R390), and the signature that the device makes, r then s (R380,
R392). -/
opaque ecdsaVerify : List Byte → BitVec 256 → BitVec 512 → Bool
opaque ecdsaSign : List Byte → BitVec 256 → BitVec 512

/-- The attestation key that stage 1 derives at a boot with these measurements (R392). -/
opaque attestKey : List (BitVec 256) → List Byte

/-- The device identity key pair, from what the boot flash keeps of it: it is encrypted under a key that the IO die derives from
its physically unclonable function (R392). -/
opaque identityKey : List Byte → List Byte

/-- The certificate by which the identity key certifies an attestation key (R392): key pair, then the key certified. -/
opaque certify : List Byte → List Byte → List Byte

/-- Which lines of a shard that contains poisoned lines are poisoned (R379, R381): its header does not say. -/
opaque shardPoison : BitVec 24 → Nat → Bool

/-- Whether the host link still stands at power-off `n` (R393). -/
opaque linkStands : Nat → Bool

/-- The bytes of an attestation report that its signature covers: nonce, measurement log, digests of the configuration records
and certificate chain, in a layout that R392 does not give. -/
opaque reportBytes : BitVec 256 → List (BitVec 256) → List (BitVec 256) → List (List Byte) → List Byte

end Sys2Proof.Config
end

