-- ==== Sys2Proof/Machine/Formats.lean ====
section
/-! DEFINITION. Number formats, rounding and conversion (chapter "Number formats, rounding and conversion"):
exact values, RoundTo, ConvertTo, error feedback, and the functions of R190. -/

namespace Sys2Proof.Machine

/-! ## Exact values -/

/-- An exact value. `fin neg mag den sh` is the number mag / (den * 2^sh) with the sign `neg`; a zero keeps its
sign (R86). -/
inductive Val where
  | nan
  | inf (neg : Bool)
  | fin (neg : Bool) (mag den sh : Nat)
  deriving DecidableEq, Repr, Inhabited

/-- Signed integer with the given sign and magnitude. -/
def signed (neg : Bool) (n : Nat) : Int := if neg then -(n : Int) else (n : Int)

/-- The exact value of an integer. -/
def Val.ofInt (i : Int) : Val := .fin (i < 0) i.natAbs 1 0

/-- A signed zero. -/
def Val.zero (neg : Bool) : Val := .fin neg 0 1 0

/-- The value with the opposite sign. -/
def Val.negate : Val → Val
  | .nan => .nan
  | .inf n => .inf (!n)
  | .fin n m d s => .fin (!n) m d s

/-- The magnitude as a value. -/
def Val.magnitude : Val → Val
  | .nan => .nan
  | .inf _ => .inf false
  | .fin _ m d s => .fin false m d s

/-- True of a zero of either sign. -/
def Val.isZero : Val → Bool
  | .fin _ m _ _ => m == 0
  | _ => false

/-- True of NaN. -/
def Val.isNaN : Val → Bool
  | .nan => true
  | _ => false

/-- True of a finite value. -/
def Val.isFinite : Val → Bool
  | .fin .. => true
  | _ => false

/-- The sign of a value; NaN counts as positive. -/
def Val.sign : Val → Bool
  | .nan => false
  | .inf n => n
  | .fin n _ _ _ => n

/-- Exact sum (R85, R86). `rdn` is true under the rounding mode rdn, where an exact zero of operands of opposite
sign is -0. -/
def Val.add (rdn : Bool) : Val → Val → Val
  | .nan, _ => .nan
  | _, .nan => .nan
  | .inf a, .inf b => if a = b then .inf a else .nan
  | .inf a, .fin .. => .inf a
  | .fin .., .inf b => .inf b
  | .fin n1 m1 d1 s1, .fin n2 m2 d2 s2 =>
    let s := Nat.max s1 s2
    let t := signed n1 (m1 * d2 * 2 ^ (s - s1)) + signed n2 (m2 * d1 * 2 ^ (s - s2))
    if t = 0 then
      if n1 = n2 then .zero n1 else .zero rdn
    else .fin (t < 0) t.natAbs (d1 * d2) s

/-- Exact product (R85, R86). -/
def Val.mul : Val → Val → Val
  | .nan, _ => .nan
  | _, .nan => .nan
  | .inf a, .inf b => .inf (a != b)
  | .inf a, .fin n m _ _ => if m = 0 then .nan else .inf (a != n)
  | .fin n m _ _, .inf b => if m = 0 then .nan else .inf (n != b)
  | .fin n1 m1 d1 s1, .fin n2 m2 d2 s2 => .fin (n1 != n2) (m1 * m2) (d1 * d2) (s1 + s2)

/-- Exact quotient by a value; a zero divisor gives an infinity, 0/0 and ∞/∞ give NaN (R85). -/
def Val.div : Val → Val → Val
  | .nan, _ => .nan
  | _, .nan => .nan
  | .inf _, .inf _ => .nan
  | .inf a, .fin n _ _ _ => .inf (a != n)
  | .fin n _ _ _, .inf b => .zero (n != b)
  | .fin n1 m1 d1 s1, .fin n2 m2 d2 s2 =>
    if m2 = 0 then (if m1 = 0 then .nan else .inf (n1 != n2))
    else .fin (n1 != n2) (m1 * d2 * 2 ^ s2) (d1 * m2) s1

/-- Strict order of two values that are not NaN; the two zeros are equal. -/
def Val.lt : Val → Val → Bool
  | .nan, _ => false
  | _, .nan => false
  | .inf a, .inf b => a && !b
  | .inf a, .fin .. => a
  | .fin .., .inf b => !b
  | .fin n1 m1 d1 s1, .fin n2 m2 d2 s2 =>
    let s := Nat.max s1 s2
    signed n1 (m1 * d2 * 2 ^ (s - s1)) < signed n2 (m2 * d1 * 2 ^ (s - s2))

/-- Equality of two values that are not NaN; -0 equals +0 (R157, R191). -/
def Val.eqv (a b : Val) : Bool := !a.isNaN && !b.isNaN && !a.lt b && !b.lt a

/-- The order of R158 and R189, in which -0 lies below +0. -/
def Val.below (a b : Val) : Bool := a.lt b || (a.isZero && b.isZero && a.sign && !b.sign)

/-- The larger of two values, NaN if either is NaN (R158, R189). -/
def Val.larger (a b : Val) : Val :=
  if a.isNaN || b.isNaN then .nan else if a.below b then b else a

/-- The smaller of two values, NaN if either is NaN (R158, R189). -/
def Val.smaller (a b : Val) : Val :=
  if a.isNaN || b.isNaN then .nan else if b.below a then b else a

/-- The exact sum of a list (R97): NaN if a term is NaN or both infinities occur, else an infinity that occurs,
else the sum. An exact zero is -0 when every term is -0, and `zneg` otherwise. -/
def Val.sum (zneg : Bool) (xs : List Val) : Val :=
  let t := xs.foldl (Val.add false) (.zero false)
  if t.isZero then .zero (if xs.all (fun x => x.isZero && x.sign) && !xs.isEmpty then true else zneg) else t

/-! ## Formats (R83, R84, R87, R89, R91) -/

/-- The formats that hold one value; index formats (code 0xE) are no value format. -/
inductive Fmt where
  | f64 | f32 | bf16 | f16 | e4m3 | e5m2 | tws8
  | i8 | i16 | i32 | i64 | n8 | n16 | n32 | n64
  deriving DecidableEq, Repr, Inhabited

/-- The format of a code of R91, with 0x10 for n64; none for 0xE, 0xF and the codes above. -/
def Fmt.ofCode : Nat → Option Fmt
  | 0 => some .f64 | 1 => some .f32 | 2 => some .bf16 | 3 => some .f16
  | 4 => some .e4m3 | 5 => some .e5m2 | 6 => some .tws8 | 7 => some .i8
  | 8 => some .i16 | 9 => some .i32 | 10 => some .i64 | 11 => some .n8
  | 12 => some .n16 | 13 => some .n32 | 16 => some .n64
  | _ => none

/-- Width of a format in bits. -/
def Fmt.bits : Fmt → Nat
  | .f64 | .i64 | .n64 => 64
  | .f32 | .i32 | .n32 => 32
  | .bf16 | .f16 | .i16 | .n16 => 16
  | .e4m3 | .e5m2 | .tws8 | .i8 | .n8 => 8

/-- Width of a format in bytes. -/
def Fmt.bytes (f : Fmt) : Nat := f.bits / 8

/-- True of the float formats 0x0 to 0x5 (class F of R187). -/
def Fmt.isFloat : Fmt → Bool
  | .f64 | .f32 | .bf16 | .f16 | .e4m3 | .e5m2 => true
  | _ => false

/-- True of the integer formats (class I of R187, and n64). -/
def Fmt.isInt : Fmt → Bool
  | .i8 | .i16 | .i32 | .i64 | .n8 | .n16 | .n32 | .n64 => true
  | _ => false

/-- True of the two's-complement formats. -/
def Fmt.isSigned : Fmt → Bool
  | .i8 | .i16 | .i32 | .i64 => true
  | _ => false

/-- The parameters of a float format: exponent bits, fraction bits, bias (R83). -/
structure FloatSpec where
  ebits : Nat
  fbits : Nat
  bias  : Nat
  /-- True of E4M3, which has no infinity and one NaN code (R84). -/
  noInf : Bool
  deriving DecidableEq, Repr

/-- The parameters of a format; the integer formats take those of FP32 and never use them. -/
def Fmt.spec : Fmt → FloatSpec
  | .f64 => ⟨11, 52, 1023, false⟩
  | .bf16 => ⟨8, 7, 127, false⟩
  | .f16 => ⟨5, 10, 15, false⟩
  | .e4m3 => ⟨4, 3, 7, true⟩
  | .e5m2 => ⟨5, 2, 15, false⟩
  | _ => ⟨8, 23, 127, false⟩

/-- The magnitude code of the largest finite value. -/
def FloatSpec.maxFinite (p : FloatSpec) : Nat :=
  if p.noInf then 2 ^ (p.ebits + p.fbits) - 2 else (2 ^ p.ebits - 1) * 2 ^ p.fbits - 1

/-- The code of +∞ (formats with infinities). -/
def FloatSpec.infinity (p : FloatSpec) : Nat := (2 ^ p.ebits - 1) * 2 ^ p.fbits

/-- The canonical NaN (R85). -/
def FloatSpec.nan (p : FloatSpec) : Nat :=
  if p.noInf then 2 ^ (p.ebits + p.fbits) - 1 else p.infinity + 2 ^ (p.fbits - 1)

/-- The value m * 2^e. -/
def Val.scaled (neg : Bool) (m : Nat) (e : Int) : Val :=
  if e < 0 then .fin neg m 1 e.natAbs else .fin neg (m * 2 ^ e.toNat) 1 0

/-- The value of a float encoding (R84). -/
def FloatSpec.value (p : FloatSpec) (bits : Nat) : Val :=
  let neg := bits / 2 ^ (p.ebits + p.fbits) % 2 == 1
  let e := bits / 2 ^ p.fbits % 2 ^ p.ebits
  let f := bits % 2 ^ p.fbits
  if e = 2 ^ p.ebits - 1 ∧ !p.noInf then (if f = 0 then .inf neg else .nan)
  else if e = 2 ^ p.ebits - 1 ∧ f = 2 ^ p.fbits - 1 then .nan
  else if e = 0 then .scaled neg f (1 - (p.bias : Int) - p.fbits)
  else .scaled neg (2 ^ p.fbits + f) ((e : Int) - p.bias - p.fbits)

/-- One term of a TWS8 byte in units of 2^-6 (R87). -/
def tws8Term (neg : Bool) (c : Nat) : Int := if c = 7 then 0 else signed neg (2 ^ (6 - c))

/-- A TWS8 byte in units of 2^-6 (R87). -/
def tws8Units (b : Nat) : Int :=
  tws8Term (b / 128 % 2 == 1) (b / 16 % 8) + tws8Term (b / 8 % 2 == 1) (b % 8)

/-- How many terms of a TWS8 byte are present (R88). -/
def tws8Terms (b : Nat) : Nat := (if b / 16 % 8 = 7 then 0 else 1) + (if b % 8 = 7 then 0 else 1)

/-- The canonical TWS8 byte of a value in units of 2^-6, if there is one: fewest terms, then the smallest byte
(R88). -/
def tws8Canon (u : Int) : Option Nat :=
  (List.range 256).foldl (fun best b =>
    if tws8Units b = u then
      match best with
      | none => some b
      | some c => if tws8Terms b < tws8Terms c then some b else best
    else best) none

/-- The value of the encoding `bits` in a format (R84, R87, R89); higher bits are ignored. -/
def Fmt.value (f : Fmt) (bits : Nat) : Val :=
  let b := bits % 2 ^ f.bits
  if f.isFloat then f.spec.value b
  else if f = .tws8 then
    let u := tws8Units b
    .fin (u < 0) u.natAbs 1 6
  else if f.isSigned && b ≥ 2 ^ (f.bits - 1) then .ofInt ((b : Int) - 2 ^ f.bits)
  else .ofInt b

/-! ## Rounding (R92, R93) -/

/-- The rounding modes of R92, in code order. -/
inductive Mode where
  | rne | rtz | rup | rdn | rneEf
  deriving DecidableEq, Repr, Inhabited

/-- The mode of a code; the reserved codes give rne and never reach a use. -/
def Mode.ofCode : Nat → Mode
  | 1 => .rtz | 2 => .rup | 3 => .rdn | 4 => .rneEf | _ => .rne

/-- Whether a magnitude that lies `r / d` above the lower neighbour goes to the upper one. `odd` says that the
lower neighbour's last bit is 1. -/
def roundsUp (mode : Mode) (neg odd : Bool) (r d : Nat) : Bool :=
  match mode with
  | .rne | .rneEf => 2 * r > d || (2 * r == d && odd)
  | .rtz => false
  | .rup => r != 0 && !neg
  | .rdn => r != 0 && neg

/-- floor(log2 (n / d)) for n > 0. -/
def floorLog2 (n d : Nat) : Int :=
  let e : Int := (Nat.log2 n : Int) - Nat.log2 d
  let fits := if e < 0 then n * 2 ^ e.natAbs ≥ d else n ≥ d * 2 ^ e.toNat
  if fits then e else e - 1

/-- The result of rounding a magnitude to a float format: its code, or overflow (R92). -/
inductive Rounded where
  | code (n : Nat)
  | overflow
  deriving DecidableEq, Repr

/-- Round the magnitude mag / (den * 2^sh) to a float format (R92). -/
def FloatSpec.roundMag (p : FloatSpec) (mode : Mode) (neg : Bool) (mag den sh : Nat) : Rounded :=
  if mag = 0 then .code 0 else
  let e := floorLog2 mag (den * 2 ^ sh)
  let q := max (e - p.fbits) (1 - (p.bias : Int) - p.fbits)
  let n := if q < 0 then mag * 2 ^ q.natAbs else mag
  let d := if q < 0 then den * 2 ^ sh else den * 2 ^ sh * 2 ^ q.toNat
  let k := n / d
  let r := n % d
  let base := (q + p.bias + p.fbits - 1).toNat * 2 ^ p.fbits
  let c := base + (if roundsUp mode neg (k % 2 == 1) r d then k + 1 else k)
  let tieAtTop := (mode = .rne || mode = .rneEf) && base + k == p.maxFinite && 2 * r == d
  if c > p.maxFinite || tieAtTop then .overflow else .code c

/-- The magnitude code and the NaN flag that an overflow gives without saturation (R92). -/
def FloatSpec.overflowCode (p : FloatSpec) (mode : Mode) (neg : Bool) : Nat × Bool :=
  let toInf := match mode with
    | .rne | .rneEf => true
    | .rtz => false
    | .rup => !neg
    | .rdn => neg
  if toInf then (if p.noInf then (p.nan, true) else (p.infinity, false)) else (p.maxFinite, false)

/-- A magnitude code with its sign. -/
def FloatSpec.withSign (p : FloatSpec) (neg : Bool) (c : Nat) : Nat :=
  if neg then 2 ^ (p.ebits + p.fbits) + c else c

/-- Round n / d (d > 0) with the given sign to an integer (R93). -/
def roundInt (mode : Mode) (neg : Bool) (n d : Nat) : Int :=
  signed neg (if roundsUp mode neg (n / d % 2 == 1) (n % d) d then n / d + 1 else n / d)

/-- The TWS8 neighbours of n / d units, rounded by R93: the byte. -/
def tws8Round (mode : Mode) (neg : Bool) (n d : Nat) : Nat :=
  if n ≥ 128 * d then (if neg then 0x88 else 0x00) else
  let x := signed neg n
  let vals := (List.range 256).map tws8Units
  let lo := vals.foldl (fun b v => if v * d ≤ x ∧ b < v then v else b) (-128)
  let hi := vals.foldl (fun b v => if x ≤ v * d ∧ v < b then v else b) 128
  let code := fun u => (tws8Canon u).getD 0x77
  let pick : Int := match mode with
    | .rtz => if neg then hi else lo
    | .rup => hi
    | .rdn => lo
    | .rne | .rneEf =>
      let dl := x - lo * d
      let dh := hi * d - x
      if dl < dh then lo else if dh < dl then hi
      else if tws8Terms (code lo) < tws8Terms (code hi) then lo
      else if tws8Terms (code hi) < tws8Terms (code lo) then hi
      else if lo.natAbs ≤ hi.natAbs then lo else hi
  code pick

/-! ## Conversion (R95) -/

/-- The least value of an integer format. -/
def Fmt.minInt (f : Fmt) : Int := if f.isSigned then -(2 ^ (f.bits - 1) : Nat) else 0

/-- The greatest value of an integer format. -/
def Fmt.maxInt (f : Fmt) : Int := if f.isSigned then (2 ^ (f.bits - 1) : Nat) - 1 else (2 ^ f.bits : Nat) - 1

/-- The encoding of an integer, modulo 2^w. -/
def Fmt.encodeInt (f : Fmt) (i : Int) : Nat := (i % (2 ^ f.bits : Nat)).toNat

/-- ConvertTo(df, x, mode, sat) of R95, as the encoding of the result. -/
def convertTo (f : Fmt) (x : Val) (mode : Mode) (sat : Bool) : Nat :=
  if f.isFloat then
    let p := f.spec
    match x with
    | .nan => p.nan
    | .inf n => if p.noInf then (if sat then p.withSign n p.maxFinite else p.nan) else p.withSign n p.infinity
    | .fin n m d s =>
      match p.roundMag mode n m d s with
      | .code c => p.withSign n c
      | .overflow =>
        if sat then p.withSign n p.maxFinite
        else match p.overflowCode mode n with
          | (c, true) => c
          | (c, false) => p.withSign n c
  else if f = .tws8 then
    match x with
    | .nan => 0x77
    | .inf n => if n then 0x88 else 0x00
    | .fin n m d s => tws8Round mode n (m * 64) (d * 2 ^ s)
  else
    match x with
    | .nan => 0
    | .inf n => if sat then f.encodeInt (if n then f.minInt else f.maxInt) else 0
    | .fin n m d s =>
      let i := roundInt mode n m (d * 2 ^ s)
      if sat then f.encodeInt (max f.minInt (min f.maxInt i)) else f.encodeInt i

/-- RoundTo(fmt, x, mode) as a value (R92). -/
def roundTo (f : Fmt) (x : Val) (mode : Mode) : Val := f.value (convertTo f x mode false)

/-- True when the encoding denotes a NaN or an infinity. -/
def Fmt.special (f : Fmt) (bits : Nat) : Bool := !(f.value bits).isFinite

/-- One step of error feedback (R94): the encoding of element `x` with carried residual `e`, and the next
residual. -/
def feedbackStep (f : Fmt) (sat : Bool) (x e : Val) : Nat × Val :=
  let v := if e.isZero then x else x.add false e
  let y := convertTo f v .rne sat
  (y, if !v.isFinite || f.special y then .zero false else v.add false (f.value y).negate)

/-- The last residual of a block whose elements so far are `xs` (R94). -/
def feedbackResidual (f : Fmt) (sat : Bool) (xs : List Val) : Val :=
  xs.foldl (fun e x => (feedbackStep f sat x e).2) (.zero false)

/-- Element `i` of a segment's sources `xs`, converted; under rne_ef the blocks of 32 elements carry their
residual (R94, R100). -/
def convertElement (f : Fmt) (mode : Mode) (sat : Bool) (xs : List Val) (i : Nat) : Nat :=
  let x := xs.getD i (.zero false)
  match mode with
  | .rneEf => (feedbackStep f sat x (feedbackResidual f sat ((xs.take i).drop (i / 32 * 32)))).1
  | m => convertTo f x m sat

/-! ## FCLASS (R99) -/

/-- The class mask of an encoding. -/
def fclassMask (f : Fmt) (bits : Nat) : Nat :=
  let b := bits % 2 ^ f.bits
  if f = .tws8 then
    let u := tws8Units b
    let base := if u = 0 then 2 ^ 4 else if u < 0 then 2 ^ 1 else 2 ^ 6
    if tws8Canon u = some b then base else base + 2 ^ 10
  else
    let p := f.spec
    let neg := b / 2 ^ (p.ebits + p.fbits) % 2 == 1
    let fr := b % 2 ^ p.fbits
    let ex := b / 2 ^ p.fbits % 2 ^ p.ebits
    match p.value b with
    | .nan => if p.noInf || fr ≥ 2 ^ (p.fbits - 1) then 2 ^ 9 else 2 ^ 8
    | .inf n => if n then 2 ^ 0 else 2 ^ 7
    | .fin _ m _ _ =>
      if m = 0 then (if neg then 2 ^ 3 else 2 ^ 4)
      else if ex = 0 then (if neg then 2 ^ 2 else 2 ^ 5)
      else (if neg then 2 ^ 1 else 2 ^ 6)

/-! ## The functions of R190

Square roots are settled exactly from an integer root and its remainder. 2^a, log2 a and tanh a are enclosed in an
interval of integers scaled by 2^p, doubled in precision until both ends convert alike. -/

/-- floor(sqrt n), one bit at a time from bit `b` down. -/
def isqrtFrom (n : Nat) : Nat → Nat → Nat
  | 0, r => if (r + 1) * (r + 1) ≤ n then r + 1 else r
  | b + 1, r => isqrtFrom n b (if (r + 2 ^ (b + 1)) * (r + 2 ^ (b + 1)) ≤ n then r + 2 ^ (b + 1) else r)

/-- floor(sqrt n). -/
def isqrt (n : Nat) : Nat := isqrtFrom n (Nat.log2 n / 2 + 1) 0

/-- A value that rounds as sqrt (n / d) does in every format: the root itself when it is a multiple of 2^-700,
else the middle of the two multiples around it. -/
def sqrtVal (n d : Nat) : Val :=
  let r := isqrt (n * 2 ^ 1400 / d)
  if r * r * d = n * 2 ^ 1400 then .fin false r 1 700 else .fin false (2 * r + 1) 1 701

/-- Lower and upper sums of the series of artanh z, scaled by 2^p, for `t` the current power of z, `z2` the square
of z (each a lower and an upper bound), and `k` the term's odd divisor. -/
def artanhSum (p : Nat) (z2 : Nat × Nat) : Nat → Nat → Nat × Nat → Nat × Nat → Nat × Nat
  | 0, _, t, acc => (acc.1, acc.2 + t.2 + 1)
  | f + 1, k, t, acc =>
    artanhSum p z2 f (k + 2) (t.1 * z2.1 / 2 ^ p, t.2 * z2.2 / 2 ^ p + 1)
      (acc.1 + t.1 / k, acc.2 + t.2 / k + 1)

/-- Bounds of artanh (n / d), scaled by 2^p, for n / d at most 1/3. -/
def artanhBounds (p n d : Nat) : Nat × Nat :=
  let lo := n * 2 ^ p / d
  let hi := lo + 1
  artanhSum p (lo * lo / 2 ^ p, hi * hi / 2 ^ p + 1) (p / 3 + 2) 1 (lo, hi) (0, 0)

/-- Bounds of ln 2, scaled by 2^p. -/
def ln2Bounds (p : Nat) : Nat × Nat :=
  let b := artanhBounds p 1 3
  (2 * b.1, 2 * b.2)

/-- Bounds of the exponential series for y between the two bounds, scaled by 2^p. -/
def expSum (p : Nat) (y : Nat × Nat) : Nat → Nat → Nat × Nat → Nat × Nat → Nat × Nat
  | 0, _, t, acc => (acc.1, acc.2 + 2 * t.2 + 1)
  | f + 1, k, t, acc =>
    expSum p y f (k + 1) (t.1 * y.1 / (k * 2 ^ p), t.2 * y.2 / (k * 2 ^ p) + 1) (acc.1 + t.1, acc.2 + t.2)

/-- Bounds of e^y scaled by 2^p, for y below 1. -/
def expBounds (p : Nat) (y : Nat × Nat) : Nat × Nat :=
  expSum p y (p / 4 + 10) 1 (2 ^ p, 2 ^ p) (0, 0)

/-- Bounds of 2^(n / d) for a signed argument, as two values. -/
def exp2Bounds (p : Nat) (neg : Bool) (n d : Nat) : Val × Val :=
  let x := signed neg n
  let i := x / (d : Int)
  let f := (x % (d : Int)).toNat
  let l := ln2Bounds p
  let e := expBounds p (f * l.1 / d, f * l.2 / d + 1)
  (.scaled false e.1 (i - p), .scaled false e.2 (i - p))

/-- Bounds of log2 (n / d), as two values. -/
def log2Bounds (p n d : Nat) : Val × Val :=
  let e := floorLog2 n d
  let a := if e < 0 then n * 2 ^ e.natAbs else n
  let b := if e < 0 then d else d * 2 ^ e.toNat
  let t := artanhBounds p (a - b) (a + b)
  let l := ln2Bounds p
  let lo := e * (2 ^ p : Nat) + (2 * t.1 * 2 ^ p / l.2 : Nat)
  let hi := e * (2 ^ p : Nat) + (2 * t.2 * 2 ^ p / l.1 + 1 : Nat)
  (.fin (lo < 0) lo.natAbs 1 p, .fin (hi < 0) hi.natAbs 1 p)

/-- Bounds of tanh (n / d), as two values. -/
def tanhBounds (p n d : Nat) : Val × Val :=
  let l := ln2Bounds p
  let x := 2 * n * 2 ^ p / d
  let k := x / l.2
  let e := expBounds p (x - k * l.2, x + 1 - k * l.1)
  let lo := e.1 * 2 ^ k
  let hi := e.2 * 2 ^ k
  (.fin false (lo - 2 ^ p) (lo + 2 ^ p) 0, .fin false (hi - 2 ^ p) (hi + 2 ^ p) 0)

/-- Convert the value that lies within `bounds p`, at the first precision that settles it: `p`, 2 `p`, and so on. The value is
irrational, so the bounds part from every midpoint, and no argument of a format of R91 is known to need more than a few hundred
bits; where the last precision too leaves it open, the lower bound is taken (DEDUCED, unsafe, log entry 34). -/
def settle (f : Fmt) (mode : Mode) (sat : Bool) (bounds : Nat → Val × Val) : Nat → Nat → Nat
  | 0, p => convertTo f (bounds p).1 mode sat
  | n + 1, p =>
    let b := bounds p
    let lo := convertTo f b.1 mode sat
    let hi := convertTo f b.2 mode sat
    if lo = hi then lo else settle f mode sat bounds n (2 * p)

/-- The six functions of R190. -/
inductive Fn where
  | rcp | rsqrt | sqrt | exp2 | log2 | tanh
  deriving DecidableEq, Repr

/-- 2^a, with the arguments whose result no format can tell from a bound settled by that bound. -/
def exp2Convert (f : Fmt) (mode : Mode) (sat : Bool) (neg : Bool) (n d : Nat) : Nat :=
  if n % d = 0 ∧ n / d ≤ 2000 then convertTo f (.scaled false 1 (signed neg (n / d))) mode sat
  else if n ≥ 2000 * d then convertTo f (.scaled false 1 (if neg then -2000 else 2000)) mode sat
  else if n * 2 ^ 100 < d then
    convertTo f (.fin false (if neg then 2 ^ 100 - 1 else 2 ^ 100 + 1) 1 100) mode sat
  else settle f mode sat (fun p => exp2Bounds p neg n d) 14 128

/-- log2 (n / d), exact at the powers of two. The zero that log2 1 gives is +0 in every mode: R86 has no row for it (R190; DESIGN
CHOICE, unsafe, log entry 77). -/
def log2Convert (f : Fmt) (mode : Mode) (sat : Bool) (n d : Nat) : Nat :=
  let e := floorLog2 n d
  if (if e < 0 then n * 2 ^ e.natAbs = d else n = d * 2 ^ e.toNat) then
    convertTo f (if e = 0 then .zero false else .ofInt e) mode sat
  else settle f mode sat (fun p => log2Bounds p n d) 14 128

/-- tanh of a positive argument, for the sign `neg`; very small and very large arguments are settled by a bound. -/
def tanhConvert (f : Fmt) (mode : Mode) (sat : Bool) (neg : Bool) (n d : Nat) : Nat :=
  let withSign := fun v : Val => if neg then v.negate else v
  if n * 2 ^ 60 < d then convertTo f (withSign (.fin false (n * (2 ^ 100 - 1)) d 100)) mode sat
  else if n ≥ 128 * d then convertTo f (withSign (.fin false (2 ^ 180 - 1) 1 180)) mode sat
  else settle f mode sat (fun p => let b := tanhBounds p n d; (withSign b.1, withSign b.2)) 14 128

/-- ConvertTo(EF, f(a), MODE, SAT) of R190, the special inputs by its table. -/
def fnConvert (fn : Fn) (f : Fmt) (mode : Mode) (sat : Bool) (a : Val) : Nat :=
  let out := fun v => convertTo f v mode sat
  match a with
  | .nan => out .nan
  | .inf n =>
    match fn with
    | .rcp => out (.zero n)
    | .rsqrt => out (if n then .nan else .zero false)
    | .sqrt => out (if n then .nan else .inf false)
    | .exp2 => out (if n then .zero false else .inf false)
    | .log2 => out (if n then .nan else .inf false)
    | .tanh => out (.fin n 1 1 0)
  | .fin n m d s =>
    let den := d * 2 ^ s
    if m = 0 then
      match fn with
      | .rcp | .rsqrt => out (.inf n)
      | .sqrt | .tanh => out (.zero n)
      | .exp2 => out (.ofInt 1)
      | .log2 => out (.inf true)
    else
      match fn with
      | .rcp => out (.fin n den m 0)
      | .rsqrt => if n then out .nan else out (sqrtVal den m)
      | .sqrt => if n then out .nan else out (sqrtVal m den)
      | .exp2 => exp2Convert f mode sat n m den
      | .log2 => if n then out .nan else log2Convert f mode sat m den
      | .tanh => tanhConvert f mode sat n m den

end Sys2Proof.Machine
end

