-- ==== Sys2Proof/Machine/State.lean ====
section
/-! DEFINITION. The state of the part as plain data: one compute core with its four clusters and engines (R12, R106,
R142), the package around it (R10 to R17), and what the crown scheduler, the graft slices, the host queues and
management hold. `State.reset` is the part at the end of its boot chain (R14, R390). -/

namespace Sys2Proof.Machine

/-! ## Memories and small values -/

/-- Bytes by address, rising, with no byte equal to what an unlisted address reads as (zero; DESIGN CHOICE, unsafe, log
entry 3). -/
abbrev Memory := List Host.Cell

/-- A patch name with its tensor id (R230). -/
abbrev PName := Nat × Word

/-- Where a word stands: the cluster, section and word index that a fault record names (R349). -/
structure Place where
  cl : Cluster
  sec : BitVec 10
  word : BitVec 12
  deriving DecidableEq, Repr, Inhabited

/-- The MODE of a cluster (R106). -/
inductive IssueMode where
  | running
  | entryWait
  | instrWait
  | quartetWait
  | parked
  | halted
  deriving DecidableEq, Repr, Inhabited

/-- What a pending STEER names (R106, R118). -/
inductive SteerTo where
  | sec (n : BitVec 10)
  | park
  deriving DecidableEq, Repr

/-- A state of a spill token (R163). -/
inductive TokState where
  | free
  | spilling
  | held
  | filling
  deriving DecidableEq, Repr, Inhabited

/-- A q register (R163). -/
structure Token where
  state : TokState
  reg : BitVec 3
  addr : BitVec 32
  deriving DecidableEq, Repr, Inhabited

/-- A handle (R202): what HTEST shows, and the mapping that no instruction reads: the virtual address and the
physical address of the page. -/
structure Handle where
  valid : Bool
  tier : BitVec 3
  home : BitVec 2
  psz : BitVec 2
  pr : Bool
  pp : Bool
  pd : Bool
  tenant : BitVec 4
  tid : BitVec 24
  /-- The tensor's format, and the virtual address of its element 0 and its number of elements, which give the range of page
  bytes that they occupy (R229). -/
  fmt : BitVec 5
  base : Nat
  count : Nat
  va : Nat
  phys : Nat
  deriving DecidableEq, Repr, Inhabited

/-- The invalid handle, all of whose fields are zero (R202). -/
def Handle.invalid : Handle := ⟨false, 0, 0, 0, false, false, false, 0, 0, 0, 0, 0, 0, 0⟩

/-- The memories of a core that engines move bytes between. -/
inductive Mem where
  | ls
  | acc
  | mr
  | scale
  | cb
  deriving DecidableEq, Repr, Inhabited

/-- The checksum lanes of one accumulator bank or matrix register (R312). Each lane is a high and a low FP64 value;
the low one is zero in FP32 format. An empty list stands for 64 zero lanes. -/
structure Lanes where
  rl : List (Word × Word)
  cl : List (Word × Word)
  rm : List (Word × Word)
  cm : List (Word × Word)
  /-- Products since the last clean check or reseed: 0, 1, or 2 for two or more. -/
  uc : Nat
  f64 : Bool
  /-- The bank is the first of a pair with the bank after it. -/
  paired : Bool
  /-- The tolerance set of the most recent product since the last reseed (R315). -/
  tol : BitVec 3
  deriving DecidableEq, Repr, Inhabited

/-- Lanes as a fresh or freed bank has them; the tolerance set is TOL.F32 (R312, R315). -/
def Lanes.fresh : Lanes := ⟨[], [], [], [], 0, false, false, 1⟩

/-- Where a codebook bank was loaded from (R290). -/
inductive CbSource where
  | none
  | plane (sec : Nat)
  | ls (addr : Nat)
  deriving DecidableEq, Repr, Inhabited

/-- The state of a codebook bank beside its slots (R290). -/
structure CbBank where
  count : Nat
  ebytes : Nat
  loading : Bool
  source : CbSource
  deriving DecidableEq, Repr, Inhabited

/-- A declared phase region (R177). Bases and sizes are bytes. -/
structure Region where
  base : Nat
  size : Nat
  rd : BitVec 5
  wr : BitVec 5
  db : Bool
  tag : Bool
  /-- The half that is front, as a number 0 or 1. -/
  front : Nat
  /-- The tag slots of the region, or of H0 and H1. -/
  slot0 : Option (BitVec 16)
  slot1 : Option (BitVec 16)
  checked : Bool
  deriving DecidableEq, Repr, Inhabited

/-- An entry of the access calendar (R172): one chunk access, or, with `allPorts`, a gather cycle that reserves every
port and counts as an access to the lines from `chunk` on, `chunks` chunks long (R197). -/
structure Access where
  cycle : Nat
  kind : Nat
  write : Bool
  chunk : Nat
  chunks : Nat
  allPorts : Bool
  at_ : Place
  deriving DecidableEq, Repr, Inhabited

/-! ## Engine work in flight -/

/-- The vector words (R100, R188). -/
inductive VFn where
  | add | sub | mul | fma | max | min | abs | neg | clamp
  | rcp | rsqrt | sqrt | exp2 | log2 | tanh
  | rsum | rmax | rmin | scan
  | cmp | sel | compact | iota | topk | gather | bcast | mov
  | and | or | xor | shl | shr | rand | cbx
  | cvt | quant | deq | bscl | pack | unpack
  deriving DecidableEq, Repr, Inhabited

/-- A vector word in flight, with what it read on its issue cycle. Steps are signed. -/
structure VJob where
  id : Nat
  op : VFn
  cnt : Nat
  ef : Nat
  da : Nat
  ds : Int
  aa : Nat
  as : Int
  ba : Nat
  bs : Int
  mod : Nat
  y : Word
  /-- VCBX: bank, index width and bytes per entry. -/
  bank : Nat
  ixw : Nat
  ebytes : Nat
  t : Nat
  at_ : Place
  deriving DecidableEq, Repr, Inhabited

/-- One operand of a product: from local store or a matrix register, plain or as codebook indices (R302, R303). -/
structure ProdSrc where
  reg : Bool
  addr : Nat
  rowBytes : Nat
  fmt : Nat
  index : Bool
  ixw : Nat
  elems : Nat
  /-- The block scales of each row, E4M3 codes by K-block; an empty list means none (R304). -/
  scales : List (List Nat)
  deriving DecidableEq, Repr, Inhabited

/-- A product in flight (R299 to R307). -/
structure Prod where
  id : Nat
  opc : Nat
  mr : Bool
  dest : Nat
  f64 : Bool
  pair : Bool
  m : Nat
  n : Nat
  k : Nat
  a : ProdSrc
  b : ProdSrc
  bank : Nat
  /-- The tensor scale as FP32 bits, when the entry applies one. -/
  st : Option Nat
  fti : Nat
  tol : BitVec 3
  mcode : BitVec 3
  ncode : BitVec 3
  kcode : BitVec 6
  stamp : BitVec 24
  t : Nat
  at_ : Place
  deriving DecidableEq, Repr, Inhabited

/-- The retry record (R323): the product's shape, its operands after expansion and scaling (rows of A, columns of B),
and the lanes of the destination before it. The pre-image cells stand in banks 62 and 63 of accumulator memory. -/
structure Retry where
  prod : Prod
  opA : List (List Val)
  opB : List (List Val)
  preLanes : Lanes
  deriving DecidableEq, Repr, Inhabited

/-- A flag access (R271). `rel` is the release set that a write carries. -/
structure FlagOp where
  kind : Nat
  key : Nat × Nat
  f : BitVec 8
  v : BitVec 32
  g : BitVec 5
  acq : Bool
  scope : BitVec 3
  rel : Option (List PName)
  deriving DecidableEq, Repr, Inhabited

/-- One thing that an engine does on a core cycle. -/
inductive Act where
  /-- Register writes of R146 and of the engines. -/
  | wg (c : Cluster) (n : BitVec 5) (v : Word)
  /-- FWAIT's write, while its word still waits: it makes no write pending (R273). -/
  | wgFlag (c : Cluster) (n : BitVec 5) (v : Word)
  | wa (c : Cluster) (n : BitVec 4) (v : BitVec 32)
  | wp (c : Cluster) (n : BitVec 5) (v : Bool)
  | wy (n : BitVec 4) (v : Word)
  | wk (n : BitVec 3) (v : Word)
  | wcb (n : BitVec 2) (v : Word)
  | wh (n : BitVec 5) (h : Handle)
  | wsys (r : SysReg) (v : Word)
  | wtok (n : BitVec 4) (t : Token)
  /-- XLATE's write of a handle that its lookup gave (R204). -/
  | xlate (n : BitVec 5) (va : Word) (at_ : Place)
  /-- Bytes written to a memory, piece by piece (address, length). -/
  | wr (m : Mem) (ps : List (Nat × Nat)) (bs : List Byte)
  /-- Bytes read from one memory and written to another one cycle later; `bit` is the engine's CIR bit. -/
  | move (src : Mem) (sp : List (Nat × Nat)) (dst : Mem) (dp : List (Nat × Nat)) (bit : Nat)
  /-- A scalar load (R184). -/
  | load (g : BitVec 5) (addr sz : Nat) (sx : Bool)
  /-- Reads of part j of segment i of a vector word (R186). -/
  | vec (j : VJob) (seg part : Nat)
  /-- The output phase of a vector word, once every read has been made. -/
  | vout (j : VJob)
  /-- Row or column `i` of an operand read (R307). -/
  | prow (p : Prod) (isB : Bool) (i : Nat)
  /-- The product computed after cycle t + 39, and performed on t + 40. -/
  | pcomp (p : Prod)
  | pdone (p : Prod) (rows : List (Nat × List Byte)) (r : Retry)
  /-- MRETRY: the pre-image that its word found restored, then the recorded product computed again and performed
  (R324). -/
  | restore (r : Retry) (pre : List (List Byte))
  | rcomp (r : Retry)
  | rdone (r : Retry) (rows : List (Nat × List Byte))
  /-- Lanes reseeded from the cells (R314). -/
  | reseed (mr : Bool) (dest : Nat)
  /-- MFIX: one cell corrected (bytes at an address of a memory) by method 2 or 1, then row and column checked again
  (R322). -/
  | fix (mr : Bool) (dest row col : Nat) (addr : Nat) (bs : List Byte) (two : Bool) (at_ : Place)
  /-- Accumulator allocation and owners (R283, R284). -/
  | alloc (first count : Nat) (on zero : Bool)
  | owners (bank : Nat) (o : BitVec 8)
  /-- A format-table entry (R288). -/
  | ftab (n : BitVec 4) (v : Word)
  /-- A codebook bank takes its count, width and source, and LOADING ends (R294, R296). -/
  | cbend (bank : Nat) (count ebytes : Nat) (src : CbSource)
  | cbsrc (bank : Nat) (src : CbSource)
  /-- CBCHK compares entry `e`, and finally writes its predicate (R296). -/
  | cbcmp (id bank e ebytes addr : Nat)
  | cbans (id : Nat) (p : BitVec 5)
  /-- MTOLS reads its 64 bytes (R316). -/
  | tols (addr : Nat)
  /-- Chunk `c` of a patch's data, and of a kick's record, read (R245, R340). -/
  | patchRead (id c : Nat)
  | kickRead (id n : Nat)
  | flag (c : Cluster) (o : FlagOp)
  /-- CHKERR clears the bits it read (R364). -/
  | chkclr (v : Word)
  /-- PFUNPIN takes effect (R225). -/
  | unpin (key : Nat × Nat) (h : Handle) (off units : Nat)
  /-- A phase region declared or cleared, for the words issued from its cycle on (R182). -/
  | region (ix : BitVec 4) (r : Option Region)
  /-- A revocation marker of a replayed span (R207, R370). -/
  | revoke (tenant : BitVec 4) (p : Page)
  /-- The access of the shadow context's FGET (R273). -/
  | shadowFlag (g : BitVec 5) (f : BitVec 8)
  deriving DecidableEq, Repr

/-- An act with its core cycle and the issue order of its word (R147). -/
structure Entry where
  due : Nat
  seq : Nat
  act : Act
  deriving DecidableEq, Repr

/-- What a prefetch operation does (R223, R225, R226). -/
inductive PfKind where
  | fetch
  | pin
  | discard
  deriving DecidableEq, Repr

/-- What the next instruction of a cluster waits for after a waiting instruction has issued (R109). -/
inductive Wait where
  /-- The word is held at issue and is tried again on each cycle. -/
  | held
  | untilTime (t : Nat)
  | steer (c : Cluster) (dst : SteerTo)
  | quiet (yields : Bool)
  | phdecl (ix : BitVec 4) (r : Option Region)
  | phsw (g : BitVec 5) (tag : BitVec 16)
  | token (q : BitVec 4)
  /-- A check word, with its place in issue order, waits for the earlier writes to its destination; it then acts as if
  issued (R308). -/
  | check (i : Instr) (seq : Nat)
  | cbwait (bank : BitVec 2)
  /-- A flag access that is due on a stated cycle. -/
  | access (t : Nat)
  | fwait (o : FlagOp) (first : Nat)
  | fwaitEnd (t : Nat)
  | release (id : Nat)
  | pwait (ops : List Nat)
  /-- An operation word that issued while 32 operations were outstanding (R246). -/
  | slot (op : Nat)
  | answer (op : Nat)
  | pfwait (g : BitVec 5) (tok : BitVec 4)
  /-- A prefetch, pin or discard waits for its BUSY token; its checks have passed (R222). -/
  | prefetch (kind : PfKind) (h : Handle) (off units : Nat) (tok : BitVec 4) (key : Nat × Nat)
  | barw (g : BitVec 5) (b : BitVec 4) (v : BitVec 32) (scope : BitVec 3) (first : Nat) (key : Nat × Nat)
  | kick (id : Nat)
  | kwait (name : Word)
  | swap (g : BitVec 5)
  | taskend
  | taskendRelease (id : Nat)
  | chkerr (g : BitVec 5) (clr : Bool)
  deriving DecidableEq, Repr

/-- The issue state and the private registers of a cluster (R106, R142). -/
structure ClusterSt where
  g : Vector Word 32
  a : Vector (BitVec 32) 16
  p : Vector Bool 32
  sec : BitVec 10
  word : BitVec 12
  /-- Plane offset of the open section's header. -/
  hdr : Nat
  /-- Plane offset of the header of the section that the cluster was in before it entered this one (R126). -/
  leftHdr : Nat
  /-- The word at which a section being entered starts (R114). -/
  entry : BitVec 12
  idleRem : Nat
  mode : IssueMode
  steer : Option SteerTo
  /-- Core cycle on which the pending steer was written: it is seen from the next one (R118). -/
  steerAt : Nat
  lret : BitVec 10
  any : Bool
  /-- LRET and ANY as they stood at the end of the previous cycle (R113). -/
  lretWas : BitVec 10
  anyWas : Bool
  /-- LRET and ANY as the last word that issued found them, and whether it was the first of a run: a waiting word that faults
  puts them back (R347). -/
  lretAt : BitVec 10
  anyAt : Bool
  runAt : Bool
  /-- Place in issue order of the last word that issued: a wait that ends writes with it (R109, R147). -/
  seqAt : Nat
  wait : Option Wait
  tbase : Nat
  /-- The next word is the first of a run (R305). -/
  runStart : Bool
  /-- A section is to be entered whose header has not been checked yet (R79, R114). -/
  unchecked : Bool
  /-- The cluster entered its section on this cycle (R126). -/
  entered : Bool
  /-- The cluster has issued on this cycle. -/
  issuedNow : Bool
  /-- A wait ended on this cycle with IDLEREM at 0: the 1 that IDLEREM holds stands for this cycle alone (R109). -/
  woke : Bool
  deriving DecidableEq, Repr

/-- A cluster at task start before it enters a section (R107, R142). -/
def ClusterSt.fresh : ClusterSt :=
  { g := Vector.replicate 32 0, a := Vector.replicate 16 0, p := (Vector.replicate 32 false).set 0 true
    sec := 0, word := 0, hdr := 0, leftHdr := 0, entry := 0, idleRem := 0, mode := .parked, steer := none, steerAt := 0
    lret := 0, any := false, lretWas := 0, anyWas := false, lretAt := 0, anyAt := false, runAt := true, seqAt := 0, wait := none, tbase := 0
    runStart := true, unchecked := false, entered := false, issuedNow := false, woke := false }

/-- The shadow context (R144, R352). -/
structure Shadow where
  active : Bool
  g : Vector Word 32
  p : Vector Bool 32
  sec : BitVec 10
  word : BitVec 12
  hdr : Nat
  idleRem : Nat
  /-- It has entered a section whose header has not been checked yet (R79). -/
  unchecked : Bool
  /-- Its register writes still due, by trunk cycle (R352). -/
  pend : List (Nat × Act)
  deriving DecidableEq, Repr

def Shadow.fresh : Shadow :=
  ⟨false, Vector.replicate 32 0, Vector.replicate 32 false, 0, 0, 0, 0, false, []⟩

/-! ## Copies, prefetches and patches -/

/-- One granule that a copy command reads: its offset in the page, when it is read, and what the read gave: the
256 bytes, the chain depth met and whether poison was met (R264, R367). -/
structure GranRead where
  off : Nat
  readAt : Nat
  got : Option (List Byte × Nat × List Nat)
  deriving DecidableEq, Repr

/-- A drawer unit of a copy command (R218, R219): its block offset in the page, its link group and slot, and the trunk
cycle on which it is due. A lost unit is completed with zero data (R375). -/
structure DrawerUnit where
  index : Nat
  off : Nat
  group : Nat
  slot : Nat
  due : Nat
  arrived : Bool
  stalled : Bool
  lost : Bool
  deriving DecidableEq, Repr

/-- A copy-in from its issue to the cycle after its completion (R209 to R215). `lines` pairs each destination line with
its page offset. -/
structure CopyCmd where
  id : Nat
  h : Handle
  lines : List (Nat × Nat)
  region : BitVec 4
  tag : BitVec 16
  depth : Nat
  joined : Bool
  issued : Nat
  start : Option Nat
  /-- C without the depth term (R213, R218). -/
  base : Nat
  reqEnd : Option Nat
  complete : Option Nat
  done : Bool
  grans : List GranRead
  units : List DrawerUnit
  /-- Its GATHER list was read from poisoned lines on this cycle (R367). -/
  listBad : Bool
  key : Nat × Nat
  at_ : Place
  deriving DecidableEq, Repr

/-- A prefetch token (R222). A BUSY token names its operation. -/
inductive PfTok where
  | free
  | busy (id : Nat)
  | done (n : Nat)
  deriving DecidableEq, Repr, Inhabited

/-- A prefetch operation in flight, with the trunk cycle on which it ends. -/
structure PfOp where
  id : Nat
  tok : BitVec 4
  key : Nat × Nat
  kind : PfKind
  h : Handle
  off : Nat
  units : Nat
  due : Nat
  deriving DecidableEq, Repr

/-- A patch record of a chain (R230 to R243). Elements are raw bits of format `ef`, row by row. -/
structure PatchRec where
  tid : BitVec 24
  tenant : BitVec 4
  name : Word
  kind : PKind
  ef : Nat
  sat : Bool
  first : Nat
  rows : Nat
  cols : Nat
  pitch : Nat
  data : List Nat
  sf : Nat
  rs : Option Nat
  issuer : Nat
  digest : Word
  poisoned : Bool
  /-- Granules of which this record has been folded into the base (R239). -/
  folded : List Nat
  deriving DecidableEq, Repr

/-- What a patch operation asks of its slice. -/
inductive OpKind where
  | record (r : PatchRec) (addr bytes : Nat)
  | inv (name : Word)
  /-- PXPL, with the start floor of the task that issued it (R235, R254). -/
  | xpl (srcTid : BitVec 24) (srcName : Word) (off : Nat) (name : Word) (sf : Nat)
  | sq
  | drop (p : BitVec 5) (name : Word)
  | comm (p : BitVec 5) (a b : Word)
  | mrg (p : BitVec 5) (a b : Word)
  | snap (on : Bool)
  deriving DecidableEq, Repr

/-- What a slice answers (R246, R247, R252). -/
inductive Answer where
  | accepted
  | pred (b : Bool)
  | refused (code status : Nat) (x0 x1 : Word)
  deriving DecidableEq, Repr

/-- Where a patch operation stands. -/
inductive OpState where
  /-- Its data is being read from local store. -/
  | reading
  /-- Nothing keeps it but the 32 operations that were outstanding at its issue (R246). -/
  | ready
  /-- On its way; it arrives on the given trunk cycle, and while its context is on the core no earlier than the given core cycle
  (R6, R245). -/
  | flying (at_ early : Nat)
  /-- Held by its slice under R241 or R242, by a snapshot cursor, or until a fold into a drawer has been written back (R216, R255). -/
  | heldDepth
  | heldRecords
  | heldData
  | heldSnap
  | heldWrite
  | answered (a : Answer)
  deriving DecidableEq, Repr

/-- An operation of the W cluster at a slice (R246, R252). -/
structure PatchOp where
  id : Nat
  kind : OpKind
  /-- The handle with its number, and the station by which a packet to a peer leaves (R244, R383). -/
  hn : BitVec 5
  h : Handle
  station : Option Nat
  issued : Nat
  outstanding : Bool
  state : OpState
  replay : Bool
  key : Nat × Nat
  /-- The codes of the stalls that it has raised (R241, R242). -/
  stalled : List Nat
  /-- On a replay, the core cycle on which its first answer came (R370, R371). -/
  answerAt : Option Nat
  at_ : Place
  deriving DecidableEq, Repr

/-- What completing a release does (R267, R271, R345). -/
inductive RelAct where
  | plain
  | acquire (scope : BitVec 3)
  | flag (o : FlagOp)
  | bara (b : BitVec 4)
  | taskend
  deriving DecidableEq, Repr

/-- A release from its issue to its completion (R267). `lastAnswer` is the core cycle of the last answer of the operations that
it waits for, and `notBefore` the trunk cycle before which it cannot complete. -/
structure Release where
  id : Nat
  key : Nat × Nat
  scope : BitVec 3
  issued : Nat
  ops : List Nat
  lastAnswer : Option Nat
  notBefore : Nat
  acks : List (BitVec 10)
  act : RelAct
  at_ : Place
  deriving DecidableEq, Repr

/-- A completed release (R266), and of the last one of a task its launch and index (R336, R342). -/
structure RelDone where
  at_ : Nat
  core : Nat
  scope : BitVec 3
  set : List PName
  task : Option (Nat × Nat)
  deriving DecidableEq, Repr

/-- An increment of a barrier counter at the barrier unit (R345), with the release set it carries. -/
structure BarInc where
  bar : BitVec 4
  at_ : Nat
  core : Nat
  scope : BitVec 3
  set : List PName
  deriving DecidableEq, Repr

/-- A flag write with release, as the flag's history keeps it (R266, R271). -/
structure FlagWrite where
  flag : BitVec 8
  core : Nat
  scope : BitVec 3
  set : List PName
  deriving DecidableEq, Repr

/-- A kick in flight (R340, R341). -/
structure KickOp where
  id : Nat
  name : Word
  g : BitVec 5
  crit : Bool
  addr : Nat
  bytes : List (Nat × List Byte)
  spilled : Bool
  waiting : Bool
  /-- The word's place in the issue order, and the core cycle on which its own write performs. -/
  seq : Nat
  writes : Nat
  /-- What g[D] would hold without the word, which a refusal restores (R343). -/
  oldG : Word
  /-- It carries the replay mark (R341). -/
  replay : Bool
  at_ : Place
  deriving DecidableEq, Repr

/-! ## Faults -/

/-- The kinds of R347. -/
inductive FKind where
  | precise
  | deferred
  | stall
  | info
  deriving DecidableEq, Repr, Inhabited

/-- The condition that ERET waits for after a stall (R347): a trunk cycle by which a composition is ready in time
(R215), the units of a copy-in (R219), a patch accepted (R241, R242), or a kick placed (R341). -/
inductive StallHold where
  | until (t : Nat)
  | copy (id : Nat)
  | patch (id : Nat)
  | kick (id : Nat)
  deriving DecidableEq, Repr

/-- A fault as its rule raises it: what the record of R349 and R351 is made from. -/
structure FaultInfo where
  code : Nat
  kind : FKind
  engine : Nat
  at_ : Place
  next : Bool
  status : BitVec 32
  x0 : Word
  x1 : Word
  hold : Option StallHold
  deriving DecidableEq, Repr

/-- A 64-byte fault record (R351). -/
structure FRec where
  w0 : Word
  w1 : Word
  w2 : Word
  w3 : Word
  w4 : Word
  w5 : Word
  w6 : Word
  w7 : Word
  deriving DecidableEq, Repr, Inhabited

def FRec.zero : FRec := ⟨0, 0, 0, 0, 0, 0, 0, 0⟩

/-- A stall as a replay raises it again: core and trunk cycle, and key of the operation (R370). -/
structure StallKept where
  ctime : Nat
  trunk : Nat
  key : Nat × Nat
  f : FaultInfo
  deriving DecidableEq, Repr

/-- Why the core is frozen (R121). -/
inductive Freeze where
  /-- The shadow handler runs. -/
  | handler
  /-- The core stays frozen: no handler section, a fault in the shadow context, or TRAP there (R352 to R354). -/
  | stopped
  /-- A full fault buffer holds the record (R356). -/
  | buffer
  /-- A fault has been recorded and the handler starts on the next trunk cycle (R355). -/
  | entering
  | event (e : AsyncEvent)
  | debug
  /-- A translation entry is being installed for an XLATE (R204). -/
  | install (n : BitVec 5) (va : Word)
  /-- The same, where a word issued after the XLATE has written the handle on this core cycle (R147). -/
  | installOver (va : Word)
  /-- The loader rewrites a plane word (R368). -/
  | reload
  /-- The copy engine refetches after a strike until the core resumes on a trunk cycle (R369); `midway` in a cycle of
  which words are still to issue. -/
  | refetch (resume : Nat) (midway : Bool)
  deriving DecidableEq, Repr

/-! ## The core -/

/-- Everything that belongs to the context on the core: what R359 saves and what a strike rollback restores (R369). -/
structure Core where
  s : ClusterSt
  l : ClusterSt
  m : ClusterSt
  w : ClusterSt
  shadow : Shadow
  -- shared registers (R142)
  y : Vector Word 16
  h : Vector Handle 32
  k : Vector Word 8
  q : Vector Token 16
  cb : Vector Word 4
  -- system registers (R153)
  clag : Nat
  cir : Word
  nest : BitVec 16
  lcore : BitVec 8
  pcore : BitVec 8
  plane : Bool
  prio : BitVec 3
  tenant : BitVec 4
  traprec : Word
  mxret : Word
  ftab : Vector Word 16
  tol : Vector Word 8
  fij : Word
  kend : Vector Word 6
  -- memories (R12, R151)
  ls : Memory
  acc : Memory
  mr : Memory
  scale : Memory
  cbmem : Memory
  poison : List PoisonUnit
  -- accumulator state (R278, R312)
  allocated : Vector Bool 62
  owner : Vector (BitVec 8) 62
  accLanes : Vector Lanes 62
  mrLanes : Vector Lanes 8
  retry : Option Retry
  banks : Vector CbBank 4
  -- phase state (R177, R181)
  regions : Vector (Option Region) 16
  phase : Nat
  expTag : BitVec 16
  swapCore : Option Nat
  swapTrunk : Option Nat
  /-- Halves that were front in a phase that a swap ended: the core cycle of the swap, base and size (R181). -/
  fronts : List (Nat × Nat × Nat)
  -- engines
  timeline : List Entry
  /-- Read acts made on the current cycle: they count as still to be made until it ends (R279, R295). -/
  made : List Entry
  calendar : List Access
  bufs : List (Nat × Nat × List Byte)
  seq : Nat
  vecFree : Nat
  mxFree : Nat
  spillFree : Nat
  patchFree : Nat
  copyQ : List CopyCmd
  /-- Completed copy-ins that still fill local store: their lines and the cycles they took (R369). -/
  fills : List (List Nat × Nat)
  -- patches, releases and the scheduler interface
  pseq : Nat
  kseq : Nat
  ops : List PatchOp
  /-- Own patches accepted in this task with the trunk cycle of their issue, and the core cycle of the last answer (R267). -/
  mine : List (PName × Nat)
  lastAnswer : Option Nat
  releases : List Release
  observed : List PName
  pftok : Vector PfTok 16
  kick : Option KickOp
  -- faults and events
  freeze : List Freeze
  faultQ : List FaultInfo
  /-- Stalls and deferred faults of this core cycle that come after its precise ones (R348). -/
  waitQ : List FaultInfo
  /-- The fault being handled. -/
  handling : Option FaultInfo
  /-- The record of the fault that the handler was last entered for, as it was written (R353). -/
  handled : Option FRec
  /-- Clusters whose words have taken a precise fault, with the core cycle: those of the last such cycle, newest first (R348, R370). -/
  faultAt : List (Cluster × Nat)
  heldRec : Option (FRec × FaultInfo)
  /-- Events that have arrived, each with the trunk cycle from which it is pending (R125). -/
  pending : List (AsyncEvent × Nat)
  /-- A YIELD has raised an interrupt that has not been handled yet (R130). -/
  yielded : Bool
  /-- Cluster index from which words of the current cycle are still to issue. -/
  cursor : Nat
  issuing : Option Cluster
  /-- S holds L, M and W (R129, R130, R183). -/
  holdOthers : Bool
  /-- The word to which a taken transfer of S moves the joined quartet on this cycle (R117). -/
  qjump : Option (BitVec 12)
  -- strike rollback (R371, R372)
  phaseIdx : Nat
  touched : List (Nat × Nat)
  protectedPhase : Bool
  stepRem : Option Nat
  deriving DecidableEq, Repr

/-! ## The package -/

/-- A graft slice's view of one tensor (R228, R238, R239, R260). -/
structure Tensor where
  desc : TensorDesc
  tenant : BitVec 4
  snap : Option Nat
  /-- Fold line by granule (R239). -/
  foldLine : List (Nat × Word)
  chain : List PatchRec
  deriving DecidableEq, Repr

/-- The state of a task (R334 to R338). -/
inductive TaskState where
  | ready
  | running (core : Nat)
  | retired
  deriving DecidableEq, Repr

/-- A task of a reached walk point (R331, R332). -/
structure Task where
  nestIx : Nat
  ix : Nat
  walk : Nat
  lcore : Nat
  state : TaskState
  sf : Nat
  /-- A replay has replaced a patch of the task that another core had read (R374). -/
  lost : Bool
  deriving DecidableEq, Repr

/-- A loop-nest record as the crown scheduler holds it (R328, R340). -/
structure Nest where
  words : List Word
  nest : Nat
  child : Option Word
  crit : Bool
  ixbase : Nat
  reached : Nat
  digest : Word
  deriving DecidableEq, Repr

/-- An accepted launch (R327 to R346). -/
structure Launch where
  id : Nat
  /-- The submission that brought it (R389). -/
  seq : BitVec 32
  tenant : BitVec 4
  /-- The plane images by virtual address, as they were at acceptance (R327). -/
  images : List (Nat × List Byte)
  nests : List Nest
  ranges : List RangeBlock
  /-- The core set: dies, cores on each, and its cores in logical order (R331). -/
  ndie : Nat
  ncore : Nat
  cores : List Nat
  tasks : List Task
  childBase : Nat
  cspan : Nat
  flg : Bool
  granted : Bool
  started : Bool
  /-- The gang's flag file with its history, while it is lent to another launch (R360). -/
  savedFlags : Option (Vector (BitVec 32) 256 × List FlagWrite)
  barriers : List BarInc
  poisoned : Bool
  cancelled : Bool
  completed : Bool
  deriving DecidableEq, Repr

/-- An attestation report with its signature (R392). -/
structure Report where
  nonce : BitVec 256
  measurements : List (BitVec 256)
  records : List (BitVec 256)
  certificates : List (List Byte)
  signature : BitVec 512
  deriving DecidableEq, Repr

/-- A change of scheduler state that is journalled (R346). -/
inductive Change where
  | accepted (launch : Nat)
  | dispatched (launch ix core : Nat)
  | retired (launch ix rs : Nat)
  | placed (launch : Nat) (name : Word)
  | walked (launch nest : Nat)
  | grant (launch : Nat) (on : Bool)
  deriving DecidableEq, Repr

/-- A journal entry: JSEQ, the change and the check (R346). -/
structure JEntry where
  seq : Nat
  change : Change
  check : Word
  deriving DecidableEq, Repr

/-- A completion entry (R388). -/
inductive Completion where
  | launchDone (id : Nat) (poisoned : Bool)
  | launchRefused (reason : Nat)
  | taskCir (ix : Nat) (cir : Word)
  | linkDown (station : Nat)
  | groupDown (group : Nat)
  | crownFailed
  | gap (expected received : BitVec 32)
  | cancelled (id : Nat)
  | checkpointStarted
  | loadDone
  | loadRefused (step : Nat)
  | attested (report : Report)
  | debugger (ok : Bool)
  | replayed (n : Nat)
  | poweredOff
  deriving DecidableEq, Repr

/-- A manifest that closes a checkpoint (R380): the retired-through marks; per shard its tensor, payload length and digest; the
signature. -/
structure Manifest where
  tenant : BitVec 4
  marks : List Int
  entries : List (BitVec 24 × Nat × BitVec 256)
  signature : BitVec 512
  deriving DecidableEq, Repr

/-- The seal line that another origin reports (R238), as the least index above it, with its least running start floor (R239). -/
structure PeerSeal where
  origin : BitVec 10
  bound : Nat
  floor : Option Nat
  deriving DecidableEq, Repr

/-- What the device holds for a tenant (R203, R332, R387 to R389). -/
structure Tenant where
  id : BitVec 4
  weight : Nat
  share : Nat
  recordQuota : Nat
  dataQuota : Nat
  /-- Cache-area units on each compute die (R221). -/
  cacheQuota : List Nat
  /-- Bytes of LPDDR-6, and how many of them the save areas of its contexts take (R358). -/
  lpddrQuota : Nat
  saveUsed : Nat
  debug : Bool
  created : Bool
  ixCounter : Nat
  retired : Nat
  /-- Core cycles used on each compute die (R334). -/
  coreCycles : Vector Nat 4
  /-- Addresses and sizes of the queues in host memory: submissions, completions, faults (R388). -/
  subQ : Nat × Nat
  compQ : Nat × Nat
  faultQ : Nat × Nat
  /-- The next expected submission number, and for the last 32 their completions with their numbers (R389). -/
  expected : BitVec 32
  /-- Submission entries executed since the queue opened. -/
  executed : Nat
  answers : List (BitVec 32 × BitVec 32 × Completion)
  /-- Submission entries that the device has not read yet. -/
  inbox : List SubEntry
  compSeq : BitVec 32
  /-- The last 4,096 completion entries, and everything that has been written into the completion queue; newest first. -/
  kept : List (BitVec 32 × Completion)
  posted : List (BitVec 32 × Completion)
  /-- Records written into the fault queue, newest first. -/
  faults : List FRec
  checkpointArea : Bool
  /-- What other origins of the partition report: the least task index that is not sealed there, and the least start floor of
  the tasks that run there (R238, R239). -/
  peerSeals : List PeerSeal
  deriving DecidableEq, Repr

/-- A UALink station (R382 to R386). -/
structure Station where
  up : Bool
  contexts : List StationCtx
  /-- The counter of packets dropped that management reads, and the drops of the last millisecond with their sources and real
  times in cycles. -/
  dropCount : Nat
  drops : List (BitVec 10 × Nat)
  closed : List (BitVec 10)
  deriving DecidableEq, Repr, Inhabited

/-- A resident cache unit of canopy SRAM (R221 to R226). -/
structure CacheUnit where
  home : BitVec 2
  tenant : BitVec 4
  unit : Nat
  pinned : Bool
  deriving DecidableEq, Repr

/-- A saved context (R358, R359). -/
structure Saved where
  core : Core
  ctime : Nat
  /-- Launch and task index. -/
  task : Nat × Nat
  /-- The image in its active plane. -/
  image : Option (Nat × Nat)
  deriving DecidableEq, Repr

/-- What one granule read of a copy-in was composed from, for a replay: the tensor with the records that the read included, the
depth of the chain that it met, the base bytes and their poisoned lines, and its core cycle (R264, R371). -/
structure ReadKept where
  tensor : Option Tensor
  depth : Nat
  base : List Byte
  bad : List Nat
  ctime : Nat
  deriving DecidableEq, Repr

/-- How an accepted operation makes a record from others: PMRG makes one from two, PINV and PXPL make one from one. -/
inductive Making where
  | merge
  | inverse
  | copy
  deriving DecidableEq, Repr

/-- A record that a slice has made, with the records that it came from: when a replay replaces one of them, it is made anew (R371,
R376). What comes from one record names it twice. -/
structure Derived where
  how : Making
  p : PatchRec
  q : PatchRec
  out : PatchRec
  deriving DecidableEq, Repr

/-- What words and engines of the core meet outside it: chains, memory behind handles, residency and slot tables. -/
structure World where
  tensors : List Tensor
  gmem : Memory
  gpoison : List Nat
  dead : List (Nat × Nat)
  cache : List CacheUnit
  slots : List (Nat × Nat × BitVec 32)
  groupsDown : List Nat
  deriving DecidableEq, Repr

/-- The waiting instructions, HALT among them, that end when something outside the core has happened: a replay finds it done (R370). -/
inductive Outside where
  | kick
  | kwait
  | swap
  | halt
  deriving DecidableEq, Repr

/-- Such a wait of S: its phase, the place of its word in issue order, and the core cycle on which it ended, unless a strike met it
(R370). -/
structure WaitKept where
  phase : Nat
  seq : Nat
  what : Outside
  ended : Option Nat
  deriving DecidableEq, Repr

/-- A write slot taken for a 4 KiB block of a drawer: the granules of a tensor that are folded with it, the link group, and the slot,
counted from the start of the frames (R216, R255). -/
structure SlotWrite where
  tenant : BitVec 4
  tid : BitVec 24
  grans : List Nat
  block : Nat
  die : Nat
  slot : Nat
  deriving DecidableEq, Repr

/-- The marker of a revocation: the page, and what had been issued before it by tasks of the tenant, each as task and key: copy commands
that were not complete or whose phase was not final, and patch operations that had no answer (R207). -/
structure Marker where
  tenant : BitVec 4
  va : Nat
  copies : List ((Nat × Nat) × (Nat × Nat))
  patches : List ((Nat × Nat) × (Nat × Nat))
  deriving DecidableEq, Repr

/-- The core as it stood at the end of the first cycle of a phase, to which a strike rollback returns (R369). While that cycle
lasts, the core as it stood when it froze in it. -/
structure Snap where
  core : Core
  phase : Nat
  /-- Core time of the rollback point, and the trunk cycle on which the phase's closing swap falls, once it has. -/
  ctime : Nat
  ended : Option Nat
  /-- The phase was protected when it ended (R372). -/
  covered : Bool
  /-- It was kept at the end of its cycle, and not while the core was frozen, or met by a report, in it. -/
  whole : Bool
  /-- Prefetch operations of the context that were in flight (R371). -/
  pfops : List PfOp
  deriving DecidableEq, Repr

/-- How far the boot chain has come (R390). -/
inductive Boot where
  | off
  | stopped (stage reason : Nat)
  | running
  deriving DecidableEq, Repr

/-- The whole part, with one core modelled word by word and the other cores present through what they send (DESIGN CHOICE,
unsafe, log entry 4). -/
structure State where
  core : Core
  trunk : Nat
  boot : Boot
  /-- Bubble cycles that have passed (R120): real time in cycles is the trunk counter plus this. -/
  bubble : Nat
  -- configuration records (R391)
  drawerL : Nat
  slots : List (Nat × Nat × BitVec 32)
  retrainLimit : Nat
  origin : BitVec 10
  rollbackArea : Nat
  spillQueueSize : Nat
  /-- How the canopy SRAM of each compute die is divided (R13, R391). -/
  areas : Vector CanopyArea 4
  /-- The counter in the replay-protected area of the boot flash (R390). -/
  monotonic : Nat
  measurements : List (BitVec 256)
  records : List (BitVec 256)
  /-- The attestation key that stage 1 derived at the last boot, and of the device identity the key pair as the boot flash keeps
  it, encrypted, with its certificate (R392). -/
  attestKey : List Byte
  identity : List Byte
  identityCert : List Byte
  -- planes of the core (R339)
  planes : Vector (List Byte) 2
  /-- Which image each plane holds: launch number and virtual address (R328, R339). -/
  planeOf : Vector (Option (Nat × Nat)) 2
  -- memory behind handles
  gmem : Memory
  gpoison : List Nat
  pages : List Page
  tensors : List Tensor
  cache : List CacheUnit
  dead : List (Nat × Nat)
  pfops : List PfOp
  groupsDown : List Nat
  retraining : List Nat
  /-- Folds into drawers whose write slots have not passed (R216, R255). -/
  slotWrites : List SlotWrite
  /-- Shards in the tenants' checkpoint areas (R378, R379), checkpoints that are being taken, and manifests (R380). -/
  shards : List (BitVec 4 × Shard)
  checkpoints : List (BitVec 4 × List (BitVec 24))
  manifests : List Manifest
  -- ordering
  relHist : List RelDone
  flags : Vector (BitVec 32) 256
  flagHist : List FlagWrite
  /-- Answers of effects of phases that are not final, by phase and index within the phase, with the core cycle of
  the answer (R371). -/
  log : List ((Nat × Nat) × Word × Nat)
  opLog : List ((Nat × Nat) × Answer × Nat)
  /-- What the slices have answered to the operations of such phases, with the digest of a recording word's record and the core cycle
  (R371). -/
  sliceLog : List ((Nat × Nat) × Answer × Word × Nat)
  /-- What slices have made from other records in such phases, oldest first, with the phase (R371). -/
  madeLog : List (Nat × Derived)
  /-- What stood outside the core before each change since the oldest rollback point, oldest first, with the moment from which the core
  saw the change: core cycle, and precise faults taken on it (R370, R371, R376). -/
  past : List ((Nat × Nat) × World)
  /-- Phases whose space in the rollback area has been freed since then, with the moment (R372). -/
  freedLog : List ((Nat × Nat) × Nat)
  /-- What each granule read of such a copy-in was composed from, by the key of the copy-in and the address of the granule. -/
  readLog : List (((Nat × Nat) × Nat) × ReadKept)
  /-- Waits of such phases for what happens outside the core (R370). -/
  waitLog : List WaitKept
  /-- Mappings revoked in such phases: phase, core cycle and page (R207, R371). -/
  revLog : List (Nat × Nat × Page)
  /-- Stalls of patch operations and kicks raised in such phases, oldest first (R370). -/
  stallLog : List StallKept
  /-- Copy-ins of such phases that have passed their checks and entered the queue, by key (R207, R371). -/
  queueLog : List (Nat × Nat)
  /-- Revocation markers whose pages are not released (R207). -/
  markers : List Marker
  replayUntil : Option Nat
  -- faults of the die (R355, R356)
  faultBuf : List FRec
  recSeq : BitVec 16
  overflow : Bool
  infoDropped : Nat
  /-- The FAULT BUFFER OVERFLOW record of this overflow has been written (R356). -/
  overflowTold : Bool
  -- the crown scheduler
  launches : List Launch
  /-- Launch and task index of the task that the core runs. -/
  task : Option (Nat × Nat)
  retiring : Option (Nat × Nat)
  contextLaunch : Option Nat
  pool : List (Nat × Word)
  spillQ : List (Nat × Word)
  /-- The journal of the crown scheduler, newest entry first (R346). -/
  journal : List JEntry
  jseq : Nat
  /-- Crown cores that work; while `crownDown`, no crown core runs the scheduler, and the standby resumes on
  `takeoverAt` (R346). -/
  crowns : Nat
  crownDown : Bool
  takeoverAt : Option Nat
  /-- Retirements held during a take-over: launch, task and CIR. -/
  heldRetirements : List (Nat × Nat × Word)
  /-- The trunk cycle before which no dispatch is made, once one has become possible. -/
  dispatchAt : Option Nat
  /-- The trunk cycle on which the loader has filled the shadow plane, once it has begun (R339). -/
  loadAt : Option Nat
  saved : List Saved
  snaps : List Snap
  -- host, fabric and management (R382 to R394)
  tenants : List Tenant
  hmaj : BitVec 4
  hmin : BitVec 4
  hacc : Bool
  stations : Vector Station 16
  /-- Packages admitted to a UALink partition: partition and package number (R384, R387). -/
  members : List (Nat × BitVec 10)
  /-- Acknowledgements sent for peers' pod-scope releases: package and release number, newest first (R267, R382). -/
  podAcks : List (BitVec 10 × Nat)
  /-- Patches of peers that a slice holds, with a number of the model's own (R241, R242, R384). -/
  heldPackets : List (Nat × PacketHead × PeerPatch)
  mgmtLog : List Nat
  /-- Attestation reports returned through management, newest first (R392). -/
  mgmtReports : List Report
  /-- The tenant for whose contexts a debugger is attached to the core (R362, R394). -/
  debugger : Option (BitVec 4)
  /-- Events from outside that are still to come, by trunk cycle (DESIGN CHOICE, safe, log entry 8). -/
  agenda : List (Nat × Instr)
  /-- Counter of the free values drawn so far. The model's own (DESIGN CHOICE, safe, log entry 33). -/
  free : Nat
  deriving DecidableEq, Repr

/-- Reasons for which the machine stops. -/
inductive Fault where
  /-- Raised by `step` while the package is powered off or its boot chain has stopped (R15, R390) and nothing is on
  the agenda. Safe: nothing more happens in such a part until the host acts. -/
  | poweredOff
  deriving DecidableEq, Repr

/-- Reasons for which the model refuses a step. -/
inductive Refusal where
  /-- Raised by `exec` for an instruction whose meaning is not written. Safe: the model stops. -/
  | notModelled (mnemonic : String)
  deriving DecidableEq, Repr

/-! ## Reset -/

/-- The TOL registers at task start (R315): ABS 0, REL 2^-40 for TOL.F64, 2^-18 for TOL.F32, 2^-16 for the others. -/
def tolReset : Vector Word 8 :=
  #v[0x2B800000, 0x36800000, 0x37800000, 0x37800000, 0x37800000, 0x37800000, 0x37800000, 0x37800000]

/-- A core whose context is fresh and which runs no task: every register of R142 at its value at task start (before a first
task DESIGN CHOICE, unsafe, log entry 2). -/
def Core.fresh : Core :=
  { s := .fresh, l := .fresh, m := .fresh, w := .fresh, shadow := .fresh
    y := Vector.replicate 16 0, h := Vector.replicate 32 .invalid, k := Vector.replicate 8 0
    q := Vector.replicate 16 ⟨.free, 0, 0⟩
    cb := #v[0, 1, 2, 3]
    clag := 0, cir := 0, nest := 0, lcore := 0, pcore := 0, plane := false, prio := 0, tenant := 0, traprec := 0
    mxret := 0, ftab := Vector.replicate 16 0, tol := tolReset, fij := 0, kend := Vector.replicate 6 1
    ls := [], acc := [], mr := [], scale := [], cbmem := [], poison := []
    allocated := Vector.replicate 62 false, owner := Vector.replicate 62 0
    accLanes := Vector.replicate 62 .fresh, mrLanes := Vector.replicate 8 .fresh, retry := none
    banks := Vector.replicate 4 ⟨0, 1, false, .none⟩
    regions := Vector.replicate 16 none, phase := 0, expTag := 0, swapCore := none, swapTrunk := none, fronts := []
    timeline := [], made := [], calendar := [], bufs := [], seq := 0, vecFree := 0, mxFree := 0, spillFree := 0
    patchFree := 0, copyQ := [], fills := [], pseq := 0, kseq := 0, ops := [], mine := [], lastAnswer := none, releases := [], observed := []
    pftok := Vector.replicate 16 .free, kick := none, freeze := [], faultQ := [], waitQ := [], handling := none, handled := none, faultAt := []
    heldRec := none, pending := [], yielded := false, cursor := 0, issuing := none, holdOthers := false, qjump := none, phaseIdx := 0, touched := []
    protectedPhase := true, stepRem := none }

/-- The part at the end of its boot chain (R14, R390): the trunk counter is zero, no tenant exists, no launch has been
accepted and the core runs no task. Memories and configuration for which the manual names nothing are empty or zero (DESIGN
CHOICE, unsafe, log entries 3, 35 to 37). -/
def State.reset : State :=
  { core := .fresh, trunk := 0, boot := .running, bubble := 0
    drawerL := Config.defaultLatency, slots := [], retrainLimit := 1900000, origin := 0, rollbackArea := 1048576
    spillQueueSize := 0, areas := Vector.replicate 4 ⟨40 * 2 ^ 20, Config.patchAreaMost, 40 * 2 ^ 20⟩, monotonic := 0, measurements := [], records := []
    attestKey := [], identity := [], identityCert := []
    planes := Vector.replicate 2 [], planeOf := Vector.replicate 2 none
    gmem := [], gpoison := [], pages := [], tensors := [], cache := [], dead := [], pfops := [], groupsDown := []
    retraining := [], slotWrites := [], shards := [], checkpoints := [], manifests := [], relHist := [], flags := Vector.replicate 256 0, flagHist := []
    log := [], opLog := [], sliceLog := [], madeLog := [], past := [], freedLog := [], readLog := [], waitLog := [], revLog := [], stallLog := [], queueLog := []
    markers := [], replayUntil := none, faultBuf := [], recSeq := 0, overflow := false, infoDropped := 0, overflowTold := false
    launches := [], task := none, retiring := none, contextLaunch := none, pool := [], spillQ := [], journal := []
    jseq := 0, crowns := 2, crownDown := false, takeoverAt := none, heldRetirements := [], dispatchAt := none, loadAt := none, saved := [], snaps := []
    tenants := [], hmaj := 0, hmin := 0, hacc := false, stations := Vector.replicate 16 ⟨false, [], 0, [], []⟩
    members := [], podAcks := [], heldPackets := [], mgmtLog := [], mgmtReports := [], debugger := none, agenda := [], free := 0 }

end Sys2Proof.Machine
end

