-- ==== Sys2Proof/Machine/Ops.lean ====
section
/-! DEFINITION. The named operations over memory, registers, planes, time and faults that the meanings share; taking a
fault (R348, R352, R355, R356) and returning from it (R123, R347) are here. -/

namespace Sys2Proof.Machine

/-! ## Memory -/

/-- What an address reads as: the listed byte, else zero. -/
def Memory.get : Memory → Nat → Byte
  | [], _ => 0
  | (k, v) :: m, a => if a = k then v else Memory.get m a

/-- One byte stored, keeping the list rising and free of zero bytes. -/
def Memory.put : Memory → Nat → Byte → Memory
  | [], a, b => if b = 0 then [] else [(a, b)]
  | (k, v) :: m, a, b =>
      if a < k then (if b = 0 then (k, v) :: m else (a, b) :: (k, v) :: m)
      else if a = k then (if b = 0 then m else (a, b) :: m)
      else (k, v) :: Memory.put m a b

/-- Every listed address lies above `lo`. -/
def Memory.above (lo : Nat) : Memory → Bool
  | [] => true
  | (k, _) :: m => lo < k && Memory.above lo m

/-- The canonical form: addresses strictly rise and no listed byte is zero. -/
def Memory.wf : Memory → Bool
  | [] => true
  | (k, v) :: m => v != 0 && Memory.above k m && Memory.wf m

/-- `n` bytes from address `a`. -/
def Memory.read (m : Memory) (a n : Nat) : List Byte := (List.range n).map fun i => m.get (a + i)

/-- Bytes stored from address `a` on. -/
def Memory.write (m : Memory) (a : Nat) : List Byte → Memory
  | [] => m
  | b :: bs => Memory.write (m.put a b) (a + 1) bs

/-- A little-endian number (R4). -/
def ofBytes : List Byte → Nat
  | [] => 0
  | b :: bs => b.toNat + 256 * ofBytes bs

/-- The low `n` bytes of a number, lowest first (R4). -/
def toBytes : Nat → Nat → List Byte
  | 0, _ => []
  | n + 1, v => BitVec.ofNat 8 v :: toBytes n (v / 256)

/-- The bytes of consecutive pieces. -/
def takePieces : List (Nat × Nat) → List Byte → List (Nat × List Byte)
  | [], _ => []
  | (a, n) :: ps, bs => (a, bs.take n) :: takePieces ps (bs.drop n)

/-! ## Memories of the core and poison (R367) -/

def Core.mem (c : Core) : Mem → Memory
  | .ls => c.ls
  | .acc => c.acc
  | .mr => c.mr
  | .scale => c.scale
  | .cb => c.cbmem

def Core.setMem (c : Core) (m : Mem) (v : Memory) : Core :=
  match m with
  | .ls => { c with ls := v }
  | .acc => { c with acc := v }
  | .mr => { c with mr := v }
  | .scale => { c with scale := v }
  | .cb => { c with cbmem := v }

/-- Bytes of a poisoned unit of a memory (R367). -/
def Mem.unitBytes : Mem → Nat
  | .ls => 64
  | .acc => 256
  | .mr => 256
  | .scale => 256
  | .cb => 128

/-- The unit that holds an address (R367). -/
def Mem.unitAt (m : Mem) (a : Nat) : PoisonUnit :=
  match m with
  | .ls => .lsLine (a / 64)
  | .acc => .accRow (a / 16384) (a / 256 % 64)
  | .mr => .mRow (a / 16384) (a / 256 % 64)
  | .scale => .scaleBlock (a / 256)
  | .cb => .cbSlot (a / 32768) (a / 128 % 256)

/-- A CIR bit becomes 1 (R365). -/
def Core.setCir (c : Core) (bit : Nat) : Core := { c with cir := c.cir ||| BitVec.twoPow 64 bit }

/-- CIR bits of R365. -/
def cirPA : Nat := 1
def cirPC : Nat := 2
def cirPSC : Nat := 3
def cirPV : Nat := 4
def cirPM : Nat := 5
def cirPS : Nat := 6
def cirPP : Nat := 7
def cirPX : Nat := 8
def cirRB : Nat := 13
def cirM2 : Nat := 14
def cirLOST : Nat := 15

/-- UNCHK grows by `n`, saturating at 0xFFFF (R365). -/
def Core.addUnchecked (c : Core) (n : Nat) : Core :=
  let v := min (fieldN c.cir 32 16 + n) 0xFFFF
  { c with cir := (c.cir &&& ~~~(0xFFFF#64 <<< 32)) ||| (BitVec.ofNat 64 v <<< 32) }

/-- A byte lies in a poisoned unit of a memory. -/
def Core.badByte (c : Core) (m : Mem) (a : Nat) : Bool := c.poison.contains (m.unitAt a)

/-- Bytes that an engine reads: a poisoned unit reads as zeros and sets the engine's CIR bit (R367). -/
def Core.readMem (c : Core) (m : Mem) (bit a n : Nat) : List Byte × Core :=
  let bs := (List.range n).map fun i => if c.badByte m (a + i) then 0 else (c.mem m).get (a + i)
  (bs, if (List.range n).any fun i => c.badByte m (a + i) then c.setCir bit else c)

/-- Bytes of several pieces. -/
def Core.readPieces (c : Core) (m : Mem) (bit : Nat) : List (Nat × Nat) → List Byte × Core
  | [] => ([], c)
  | (a, n) :: ps =>
      let r := c.readMem m bit a n
      let rest := r.2.readPieces m bit ps
      (r.1 ++ rest.1, rest.2)

/-- Units that a write of `n` bytes from `a` covers wholly lose their poison mark (R367). -/
def Core.unpoison (c : Core) (m : Mem) (a n : Nat) : Core :=
  let u := m.unitBytes
  let whole := fun (p : PoisonUnit) => (List.range (n / u)).any fun i =>
    let b := ((a + u - 1) / u + i) * u
    b + u ≤ a + n && p == m.unitAt b
  if c.poison = [] then c else { c with poison := c.poison.filter fun p => !whole p }

/-- A write to a memory of the core. -/
def Core.writeMem (c : Core) (m : Mem) (a : Nat) (bs : List Byte) : Core :=
  (c.setMem m ((c.mem m).write a bs)).unpoison m a bs.length

/-- Writes of several pieces. -/
def Core.writePieces (c : Core) (m : Mem) : List (Nat × List Byte) → Core
  | [] => c
  | (a, bs) :: ps => (c.writeMem m a bs).writePieces m ps

/-! ## Registers (R142 to R150) -/

def Core.cl (c : Core) : Cluster → ClusterSt
  | .S => c.s
  | .L => c.l
  | .M => c.m
  | .W => c.w

def Core.setCl (c : Core) (k : Cluster) (v : ClusterSt) : Core :=
  match k with
  | .S => { c with s := v }
  | .L => { c with l := v }
  | .M => { c with m := v }
  | .W => { c with w := v }

/-- A g register as its cluster reads it: g0 is zero (R143). -/
def ClusterSt.readG (k : ClusterSt) (n : BitVec 5) : Word := if n = 0 then 0 else k.g[n.toNat]'(by omega)

/-- A g register written; a write to g0 is discarded (R143). -/
def ClusterSt.writeG (k : ClusterSt) (n : BitVec 5) (v : Word) : ClusterSt :=
  if n = 0 then k else { k with g := k.g.set n.toNat v (by omega) }

def ClusterSt.readA (k : ClusterSt) (n : BitVec 4) : BitVec 32 := k.a[n.toNat]'(by omega)
def ClusterSt.writeA (k : ClusterSt) (n : BitVec 4) (v : BitVec 32) : ClusterSt :=
  { k with a := k.a.set n.toNat v (by omega) }

/-- A predicate as its cluster reads it: p0 is true (R143). -/
def ClusterSt.readP (k : ClusterSt) (n : BitVec 5) : Bool := if n = 0 then true else k.p[n.toNat]'(by omega)
def ClusterSt.writeP (k : ClusterSt) (n : BitVec 5) (v : Bool) : ClusterSt :=
  if n = 0 then k else { k with p := k.p.set n.toNat v (by omega) }

def Shadow.readG (k : Shadow) (n : BitVec 5) : Word := if n = 0 then 0 else k.g[n.toNat]'(by omega)
def Shadow.writeG (k : Shadow) (n : BitVec 5) (v : Word) : Shadow :=
  if n = 0 then k else { k with g := k.g.set n.toNat v (by omega) }
def Shadow.readP (k : Shadow) (n : BitVec 5) : Bool := if n = 0 then true else k.p[n.toNat]'(by omega)
def Shadow.writeP (k : Shadow) (n : BitVec 5) (v : Bool) : Shadow :=
  if n = 0 then k else { k with p := k.p.set n.toNat v (by omega) }

def Core.readY (c : Core) (n : BitVec 4) : Word := c.y[n.toNat]'(by omega)
def Core.readK (c : Core) (n : BitVec 3) : Word := c.k[n.toNat]'(by omega)
def Core.readCb (c : Core) (n : BitVec 2) : Word := c.cb[n.toNat]'(by omega)
def Core.readH (c : Core) (n : BitVec 5) : Handle := c.h[n.toNat]'(by omega)
def Core.readQ (c : Core) (n : BitVec 4) : Token := c.q[n.toNat]'(by omega)
def Core.writeY (c : Core) (n : BitVec 4) (v : Word) : Core := { c with y := c.y.set n.toNat v (by omega) }
def Core.writeK (c : Core) (n : BitVec 3) (v : Word) : Core := { c with k := c.k.set n.toNat v (by omega) }

/-- The bits of a codebook selector that a write keeps (R149). -/
def cbMask : Word := 0xFFE303#64

def Core.writeCb (c : Core) (n : BitVec 2) (v : Word) : Core :=
  { c with cb := c.cb.set n.toNat (v &&& cbMask) (by omega) }
def Core.writeH (c : Core) (n : BitVec 5) (v : Handle) : Core := { c with h := c.h.set n.toNat v (by omega) }
def Core.writeQ (c : Core) (n : BitVec 4) (v : Token) : Core := { c with q := c.q.set n.toNat v (by omega) }

/-- A bank index below 62, by cases. -/
def Core.bankAllocated (c : Core) (b : Nat) : Bool := c.allocated.getD b false
def Core.bankOwner (c : Core) (b : Nat) : BitVec 8 := c.owner.getD b 0
def Core.lanesOf (c : Core) (mr : Bool) (d : Nat) : Lanes :=
  if mr then c.mrLanes.getD d .fresh else c.accLanes.getD d .fresh
def Core.setLanes (c : Core) (mr : Bool) (d : Nat) (l : Lanes) : Core :=
  if mr then { c with mrLanes := c.mrLanes.setIfInBounds d l } else { c with accLanes := c.accLanes.setIfInBounds d l }

/-! ### System registers (R119, R153, R154, R323) -/

/-- Core time: the trunk counter less the lag (R119). -/
def State.ctime (s : State) : Nat := s.trunk - s.core.clag

/-- CTX (R154). -/
def Core.ctx (c : Core) : Word :=
  c.nest ++ 0#8 ++ c.lcore ++ c.pcore ++ 0#15 ++ bit1 c.plane ++ bit1 c.shadow.active ++ c.prio ++ c.tenant

/-- FTAB mirrors the valid bits of the format table (R287). -/
def Core.ftabReg (c : Core) : Word :=
  BitVec.ofNat 64 ((List.range 16).foldl (fun n i => if bitAt (c.ftab.getD i 0) 0 then n + 2 ^ i else n) 0)

/-- A system register as MFS reads it. -/
def State.readSys (s : State) : SysReg → Word
  | .ctime => BitVec.ofNat 64 s.ctime
  | .clag => BitVec.ofNat 64 s.core.clag
  | .cir => s.core.cir
  | .ctx => s.core.ctx
  | .traprec => s.core.traprec
  | .mxret => s.core.mxret
  | .ftab => s.core.ftabReg
  | .tol n => s.core.tol[n.toNat]'(by omega)
  | .fij => s.core.fij
  | .kend n => s.core.kend[n.val]

/-- The W1C bits of CIR (R365). -/
def cirW1C : Word := 0x0000FFFF0000E1FE#64

/-- The RW bits of FIJ (R325). -/
def fijMask : Word := 0xFFFFFFC000000000#64

/-- An MTS performs: only RW fields are stored, and a 1 clears a W1C bit (R7, R162, R323, R365). -/
def Core.writeSys (c : Core) (r : SysReg) (v : Word) : Core :=
  match r with
  | .tol n => { c with tol := c.tol.set n.toNat v (by omega) }
  | .fij => { c with fij := v &&& fijMask }
  | .mxret => if bitAt v 63 then c else { c with mxret := c.mxret &&& ~~~(BitVec.twoPow 64 63) }
  | .cir => { c with cir := c.cir &&& ~~~(v &&& cirW1C) }
  | _ => c

/-! ## Planes and sections (R57, R75 to R82) -/

/-- The active plane's bytes (R339). -/
def State.activePlane (s : State) : List Byte := s.planes[if s.core.plane then 1 else 0]'(by split <;> decide)

/-- `n` bytes of a plane from an offset, as a number. -/
def planeNat (p : List Byte) (off n : Nat) : Nat := ofBytes ((p.drop off).take n)

/-- The word with index `w` of the section whose header stands at `hdr` (R57). -/
def planeWord (p : List Byte) (hdr w : Nat) : IWord := BitVec.ofNat 96 (planeNat p (hdr + 8 + 12 * w) 12)

/-- A section header (R75). -/
abbrev Header := BitVec 64

def headerAt (p : List Byte) (off : Nat) : Header := BitVec.ofNat 64 (planeNat p off 8)

def Header.magic (h : Header) : Nat := fieldN h 60 4
def Header.kind (h : Header) : Nat := fieldN h 57 3
def Header.sync (h : Header) : Bool := bitAt h 56
def Header.secno (h : Header) : BitVec 10 := field h 46 10
def Header.wait (h : Header) (i : Nat) : BitVec 10 := field h (36 - 10 * i) 10
def Header.len (h : Header) : Nat := fieldN h 4 12

/-- The XOR of the sixteen nibbles (R76). -/
def Header.nibbles (h : Header) : Nat := (List.range 16).foldl (fun x i => x ^^^ fieldN h (4 * i) 4) 0

/-- The reason of R79 for which a header fails on its own, 0 when it passes. The plane ends where its loaded image ends
(DEDUCED, unsafe, log entry 58). -/
def headerReason (h : Header) (off planeLen : Nat) : Nat :=
  if h.magic ≠ 10 then 1
  else if h.kind > 5 then 2
  else if h.nibbles ≠ 0 then 3
  else if h.len = 0 ∨ off + 8 + 12 * h.len > planeLen then 4
  else if h.secno = 0x3FF#10 then 5
  else if h.kind ≥ 4 ∧ (h.sync ∨ h.wait 0 ≠ 0x3FF#10 ∨ h.wait 1 ≠ 0x3FF#10 ∨ h.wait 2 ≠ 0x3FF#10) then 6
  else 0

/-- The sections of a plane from an offset on, as offsets with headers (R80). Each section is at least 8 bytes long,
so the fuel that callers give, the plane's length, never runs out. -/
def sectionsFrom (p : List Byte) : Nat → Nat → List (Nat × Header)
  | 0, _ => []
  | fuel + 1, off =>
      if off + 8 > p.length then []
      else
        let h := headerAt p off
        if h.magic ≠ 10 ∨ off + 8 + 12 * h.len > p.length then []
        else (off, h) :: sectionsFrom p fuel (off + 8 + 12 * h.len)

/-- All sections of a plane in plane order (R80). -/
def sections (p : List Byte) : List (Nat × Header) := sectionsFrom p (p.length / 8 + 1) 0

/-- The first section of a kind with a number (R82). -/
def findSection (p : List Byte) (c : Cluster) (n : BitVec 10) : Option (Nat × Header) :=
  (sections p).find? fun x => x.2.kind = c.idx && x.2.secno = n

/-- The reason of R79 for which a header of a plane fails: a DATA or CONFIG number that another section of its kind has
fails check 6 (R78). -/
def headerFault (p : List Byte) (off : Nat) (h : Header) : Nat :=
  let same := (sections p).filter fun x => x.2.kind = h.kind && x.2.secno = h.secno
  if headerReason h off p.length ≠ 0 then headerReason h off p.length
  else if h.kind ≥ 4 && same.length > 1 then 6 else 0

/-- What a walk along the headers finds (R81). -/
inductive WalkEnd where
  | found (off : Nat) (h : Header)
  | data
  | planeEnd
  | bad (h : Header) (reason : Nat)
  deriving DecidableEq, Repr

/-- The walk of R81 from an offset on: the first section of the cluster's own kind. -/
def walkFrom (p : List Byte) (c : Cluster) : Nat → Nat → WalkEnd
  | 0, _ => .planeEnd
  | fuel + 1, off =>
      if off + 8 > p.length then .planeEnd
      else
        let h := headerAt p off
        if h.magic ≠ 10 then .planeEnd
        else if headerFault p off h ≠ 0 then .bad h (headerFault p off h)
        else if h.kind = c.idx then .found off h
        else if h.kind = 4 then .data
        else walkFrom p c fuel (off + 8 + 12 * h.len)

/-- The walk that follows the section whose header stands at `hdr`. -/
def walkAfter (p : List Byte) (c : Cluster) (hdr : Nat) : WalkEnd :=
  walkFrom p c (p.length / 8 + 1) (hdr + 8 + 12 * (headerAt p hdr).len)

/-- The header of a cluster's open section. -/
def State.header (s : State) (c : Cluster) : Header := headerAt s.activePlane (s.core.cl c).hdr

/-- A cluster runs in a joined section (R75, R115). -/
def State.joined (s : State) (c : Cluster) : Bool := (s.header c).sync

/-- The word index is the section's length: the last word has issued. -/
def State.atEnd (s : State) (c : Cluster) : Bool := (s.core.cl c).word.toNat ≥ (s.header c).len

/-! ## Time: acts that are due (R145, R147) -/

/-- An act put on the timeline, in the issue order of the word that is being issued. -/
def Core.sched (c : Core) (due : Nat) (a : Act) : Core := { c with timeline := ⟨due, c.seq, a⟩ :: c.timeline }

/-- What is done with a place in issue order other than the present one: that of the word by which it is done (R147). -/
def State.inPlace (s : State) (seq : Nat) (f : State → State) : State :=
  let s1 := f { s with core := { s.core with seq := seq } }
  { s1 with core := { s1.core with seq := s.core.seq } }

/-- Several acts with their cycles. -/
def Core.schedAll (c : Core) (as : List (Nat × Act)) : Core := as.foldl (fun c x => c.sched x.1 x.2) c

/-- Acts that read: they are made after the writes of their cycle, and count as still to be made until it ends. The end
of a codebook load counts with them, since a word held by LOADING issues from the cycle after it (R294). -/
def Act.reads : Act → Bool
  | .move .. => true
  | .load .. => true
  | .vec .. => true
  | .vout .. => true
  | .prow .. => true
  | .pcomp .. => true
  | .rcomp .. => true
  | .cbcmp .. => true
  | .cbans .. => true
  | .cbend .. => true
  | .tols .. => true
  | .patchRead .. => true
  | .kickRead .. => true
  | _ => false

/-- Acts that are no write of a word: they never make a write pending. -/
def Act.silent : Act → Bool
  | .region .. => true
  | .unpin .. => true
  | .revoke .. => true
  | .wgFlag .. => true
  | .flag _ o => o.acq || o.rel.isSome
  | _ => false

/-- Some write is pending on the core, as R124 defines it. A waiting word that has issued makes its register write pending only once its
condition has held, since the write has no perform cycle before (R124, R224, R252; DEDUCED, unsafe, log entry 87). -/
def Core.writePending (c : Core) (t : Nat) : Bool :=
  c.timeline.any (fun e => t < e.due && !e.act.silent) || c.copyQ.any (fun q => q.start.isSome && !(q.done && q.complete.any (· < t))) ||
    t < c.spillFree

/-! ## Faults (R347 to R356) -/

/-- A word of the record: TRAPREC's layout (R349). -/
def FaultInfo.word0 (f : FaultInfo) : Word :=
  BitVec.ofNat 8 f.code ++ BitVec.ofNat 2 (match f.kind with | .precise => 0 | .deferred => 1 | .stall => 2 | .info => 3)
    ++ BitVec.ofNat 4 f.engine ++ BitVec.ofNat 2 f.at_.cl.idx ++ f.at_.sec ++ f.at_.word ++ bit1 f.next ++ 0#25

/-- The plane has a handler section (R352). -/
def State.handler (s : State) : Option (Nat × Header) := findSection s.activePlane .S 1022

/-- The record of a fault (R351). -/
def State.record (s : State) (f : FaultInfo) (dbl final : Bool) : FRec :=
  let unh : Bool := f.kind ≠ .info && !dbl && !final && s.handler.isNone
  { w0 := f.word0
    w1 := 0#9 ++ bit1 unh ++ bit1 final ++ bit1 dbl ++ s.core.tenant ++ s.core.lcore ++ s.core.pcore ++ f.status
    w2 := f.x0
    w3 := f.x1
    w4 := BitVec.ofNat 64 s.trunk
    w5 := BitVec.ofNat 64 s.ctime
    w6 := s.core.nest ++ 0#12 ++ field s.core.k[6] 0 36
    w7 := 0#48 ++ s.recSeq }

/-- An event put on the agenda, in time order and behind those of its cycle. -/
def State.schedule (s : State) (t : Nat) (e : Instr) : State :=
  { s with agenda := s.agenda.takeWhile (·.1 ≤ t) ++ (t, e) :: s.agenda.dropWhile (·.1 ≤ t) }

/-- Events that the device itself puts on the agenda, for a time of its own: they end with it when it is switched off. -/
def isTimer : Instr → Bool
  | .linkGroupDown _ => true
  | .translationInstall => true
  | .kickPlacement => true
  | .crownTakeover => true
  | .contextSave => true
  | .coreResume => true
  | .faultQueueCopy => true
  | .checkpointCopyAdvance _ => true
  | .sourceCloseExpiry .. => true
  | _ => false

/-- A free value is drawn. -/
def State.draw (s : State) : Nat × State := (s.free, { s with free := s.free + 1 })

/-- The crown scheduler will copy a record to the host (R355). -/
def State.copyLater (s : State) : State :=
  let d := s.draw
  d.2.schedule (s.trunk + 1 + Config.copyDelay d.1) .faultQueueCopy

/-- A record enters the die's fault buffer with the next sequence number, and the crown scheduler will copy it to the
host (R351, R355). -/
def State.pushRec (s : State) (r : FRec) : State :=
  State.copyLater { s with faultBuf := s.faultBuf ++ [{ r with w7 := 0#48 ++ s.recSeq }], recSeq := s.recSeq + 1 }

/-- An information record: written if the buffer has room, else only counted (R356). -/
def State.infoRecord (s : State) (f : FaultInfo) : State :=
  if s.faultBuf.length < Config.faultBufferSize then s.pushRec (s.record f false false)
  else { s with infoDropped := s.infoDropped + 1 }

/-- The freeze that follows a written record, the newest of the buffer: the handler starts on the next trunk cycle, unless the plane has
none (R352, R355). -/
def State.enterAfterRecord (s : State) (f : FaultInfo) : State :=
  { s with core := { s.core with handling := some f, handled := s.faultBuf.getLast?
                                 freeze := (if s.handler.isNone then .stopped else .entering) :: s.core.freeze
                                 issuing := none } }

/-- A precise fault is taken: it counts on its core cycle, and the stalls and deferred faults that have arisen there come after the
precise faults that words of the cycle have still to take (R348). -/
def State.noteFault (s : State) (f : FaultInfo) : State :=
  let c := s.core
  if f.kind ≠ .precise then s
  else
    { s with core := { c with faultAt := (f.at_.cl, s.ctime) :: c.faultAt.filter (·.2 = s.ctime)
                              faultQ := c.faultQ.filter (·.kind = .precise)
                              waitQ := c.waitQ ++ c.faultQ.filter (·.kind ≠ .precise) } }

/-- TAKING A FAULT (R348, R352, R354 to R356). A fault of a shadow word leaves a record with DBL and stops the context.
A fault that arises while the core is frozen waits its turn. Any other freezes the core and writes its record; with
the fault buffer full, the core holds the record. -/
def State.raise (s : State) (f : FaultInfo) : State :=
  if s.core.shadow.active then
    if f.kind = .precise then
      let s1 := if s.faultBuf.length < Config.faultBufferSize then s.pushRec (s.record f true false)
        else { s with overflow := true, core := { s.core with heldRec := some (s.record f true false, f) } }
      { s1 with core := { s1.core with freeze := .stopped :: s1.core.freeze, issuing := none } }
    else { s with core := { s.core with faultQ := s.core.faultQ ++ [f] } }
  else if s.core.freeze ≠ [] then { s with core := { s.core with faultQ := s.core.faultQ ++ [f] } }
  else if s.faultBuf.length < Config.faultBufferSize then
    ((s.noteFault f).pushRec (s.record f false false)).enterAfterRecord f
  else
    let s1 := s.noteFault f
    { s1 with overflow := true
              core := { s1.core with heldRec := some (s.record f false false, f), freeze := [.buffer], issuing := none } }

/-- The shadow context starts at word 0 of the handler section, with the record in g1 to g4 (R352). Register writes of
its previous run that are not yet due stay due on their trunk cycles (R146, R352). -/
def State.startHandler (s : State) : State :=
  match s.handler, s.core.handling with
  | some (off, _), some f =>
      let sh := s.core.shadow
      let g := (((sh.writeG 1 f.word0).writeG 2 (0#32 ++ f.status)).writeG 3 f.x0).writeG 4 f.x1
      let sh' := { g with active := true, sec := 1022, word := 0, hdr := off, idleRem := 0, unchecked := true }
      { s with core := { s.core with shadow := sh', traprec := f.word0
                                     freeze := .handler :: s.core.freeze.filter (· ≠ Freeze.entering)
                                     issuing := none } }
  | _, _ => { s with core := { s.core with freeze := .stopped :: s.core.freeze.filter (· ≠ Freeze.entering) } }

/-- The first of the queued faults: precise faults in cluster order, then stalls, then deferred faults in order of arrival
(R348). -/
def Core.nextFault (c : Core) : Option FaultInfo :=
  let precise := [Cluster.S, .L, .M, .W].findSome? fun k => c.faultQ.find? fun f => f.kind = .precise && f.at_.cl = k
  (precise.or (c.faultQ.find? fun f => f.kind = .stall)).or c.faultQ.head?

/-- A stall of a patch operation or a kick arrives, and is kept for a replay; one that is kept already comes with the replay of its
cycle (R370). -/
def State.takeStall (s : State) (key : Nat × Nat) (f : FaultInfo) : State :=
  if s.stallLog.any fun x => x.key = key && x.f.code = f.code && x.f.x0 = f.x0 then s
  else { s with stallLog := s.stallLog ++ [⟨s.ctime, s.trunk, key, f⟩], core := { s.core with faultQ := s.core.faultQ ++ [f] } }

/-- A stall that is raised again, held by the operation or kick as it has been issued again; none where it has not. -/
def State.stallAgain (s : State) (x : StallKept) : Option FaultInfo :=
  match x.f.hold with
  | some (.patch _) => (s.core.ops.find? fun o => o.key = x.key).map fun o => { x.f with hold := some (.patch o.id) }
  | some (.kick _) => (s.core.kick.filter fun k => k.name = x.f.x0).map fun k => { x.f with hold := some (.kick k.id) }
  | _ => some x.f

/-- The cycles up to that of the strike are issued again (R370). -/
def State.replaying (s : State) : Bool := s.replayUntil.any (s.ctime ≤ ·)

/-- On each of them the stalls that were raised on it come again, also where the slice has answered the operation since (R370; DEDUCED,
unsafe, log entry 74). -/
def State.stallsAgain (s : State) : State :=
  if s.replaying then
    let again := (s.stallLog.filter fun x => x.ctime = s.ctime).filterMap s.stallAgain
    { s with core := { s.core with faultQ := s.core.faultQ ++ again } }
  else s

/-- One queued fault is taken off the queue and raised; the others keep their place in it. -/
def State.takeQueued (s : State) : State :=
  match s.core.nextFault with
  | none => s
  | some f =>
      let s1 := { s with core := { s.core with faultQ := [] } }.raise f
      { s1 with core := { s1.core with faultQ := s.core.faultQ.erase f ++ s1.core.faultQ } }

/-- A deferred or stall fault arrives; it is taken after the words of its cycle (R348). -/
def State.queueFault (s : State) (f : FaultInfo) : State :=
  { s with core := { s.core with faultQ := s.core.faultQ ++ [f] } }

/-- RETURNING FROM A FAULT (R123, R347, R348): the shadow context ends and the core resumes on the frozen core cycle,
unless a queued fault follows at once. The manual names no means by which a handler chooses another return point, and the
model has none (DEDUCED, unsafe, log entry 61). Its register writes that are not yet due perform on their trunk cycles (R352). -/
def State.leaveHandler (s : State) : State :=
  let c := s.core
  let s1 := { s with core := { c with shadow := { c.shadow with active := false }
                                      freeze := c.freeze.filter (· ≠ Freeze.handler)
                                      handling := none, issuing := none } }
  s1.takeQueued

/-! ## What the core meets outside it (R370, R371, R376) -/

def State.world (s : State) : World := ⟨s.tensors, s.gmem, s.gpoison, s.dead, s.cache, s.slots, s.groupsDown⟩

def State.withWorld (s : State) (w : World) : State :=
  { s with tensors := w.tensors, gmem := w.gmem, gpoison := w.gpoison, dead := w.dead, cache := w.cache, slots := w.slots
           groupsDown := w.groupsDown }

/-- A moment comes before another: an earlier core cycle, or on one cycle fewer precise faults taken. -/
def earlier (a b : Nat × Nat) : Bool := a.1 < b.1 || (a.1 = b.1 && a.2 < b.2)

/-- The moment at which the core stands: the core cycle, and the precise faults that its words have taken on it. -/
def State.now (s : State) : Nat × Nat := (s.ctime, (s.core.faultAt.filter (·.2 = s.ctime)).length)

/-- The moment from which the core sees a change that comes now: the next cycle where the words of this one have issued, and the cycle
after those that are issued again where it comes in a replay, since without the strike it would have come then. -/
def State.seenFrom (s : State) : Nat × Nat :=
  if s.replaying then (s.replayUntil.getD 0 + 1, 0)
  else if (s.core.handling.or (s.core.heldRec.map (·.2))).any (·.kind ≠ .precise) then (s.ctime + 1, 0)
  else s.now

/-- The part as the core sees it: on a replay without what has changed since, as the run without the strike has it (R370, R371, R376;
DEDUCED, unsafe, log entry 74). -/
def State.asOf (s : State) : State :=
  if s.replaying then
    match s.past.find? fun x => earlier s.now x.1 with
    | some x => s.withWorld x.2
    | none => s
  else s

/-- A change `f` of what stands outside the core has led from `s` to `s1`: what stood before is kept while a rollback could ask for it.
An effect of the core's `own` that a replay makes for the first time is seen at once, so that it changes also what is kept of later
moments. -/
def State.noting (s : State) (own : Bool) (f : State → State) (s1 : State) : State :=
  if s.snaps = [] then s1
  else if own && s.replaying then
    let later := s1.past.filter fun x => earlier s.now x.1
    { s1 with past := (s1.past.filter fun x => !earlier s.now x.1) ++
                (s.now, s.asOf.world) :: later.map fun x => (x.1, (f (s.withWorld x.2)).world) }
  else { s1 with past := s1.past ++ [(s.seenFrom, s.world)] }

/-- What stands outside the core changes by `f`. -/
def State.changing (s : State) (own : Bool) (f : State → State) : State := s.noting own f (f s)

/-! ## Issue (R58, R59, R108, R117) -/

/-- The circumstances of an issuing word. `t` is the core time of issue. -/
structure Issue where
  c : Cluster
  shadow : Bool
  joined : Bool
  at_ : Place
  hdr : Nat
  t : Nat
  trunk : Nat
  idle : Nat
  opc : Nat
  /-- The word was held at issue on an earlier cycle. -/
  retry : Bool
  deriving DecidableEq, Repr

/-- The word that issues in state `s`: the cluster chosen by the last IDLE_EXPIRY (S where none was). -/
def Issue.of (s : State) (hd : Head) (opc : Nat) : Issue :=
  let c := s.core.issuing.getD .S
  let k := s.core.cl c
  let sh := s.core.shadow
  if sh.active then ⟨.S, true, false, ⟨.S, sh.sec, sh.word⟩, sh.hdr, s.ctime, s.trunk, hd.idle.toNat, opc, false⟩
  else ⟨c, false, s.joined c, ⟨c, k.sec, k.word⟩, k.hdr, s.ctime, s.trunk, hd.idle.toNat, opc, k.wait = some .held⟩

/-- Where a word may issue beside its clusters: in a joined section, in the shadow context (R117, R353). -/
structure Where where
  joined : Bool
  shadow : Bool
  deriving DecidableEq, Repr

def Where.both : Where := ⟨true, true⟩
def Where.noShadow : Where := ⟨true, false⟩
def Where.freeOnly : Where := ⟨false, false⟩
def Where.freeOrShadow : Where := ⟨false, true⟩

/-- What a word does when it issues with its guard true. -/
inductive Res where
  | ok (s : State)
  /-- A precise fault: engine, code, status, extension words. -/
  | fault (code engine : Nat) (status : BitVec 32) (x0 x1 : Word)
  /-- The word is held at issue (R109, R174); in a joined section SCHEDULE MISS cause 3 (R117). -/
  | hold

/-- A guard as its cluster reads it (R59). -/
def State.guard (s : State) (k : Issue) (hd : Head) : Bool :=
  (if k.shadow then s.core.shadow.readP hd.psel else (s.core.cl k.c).readP hd.psel) != hd.neg

/-- A cluster retires its section (R112). -/
def ClusterSt.retire (k : ClusterSt) : ClusterSt := { k with lret := k.sec, any := true }

/-- The word has issued: the PC steps on, IDLEREM takes the idle count, and after the last word of its section the
cluster retires it (R58, R108, R112). In a joined section whose S word took a transfer on this cycle, the other
clusters move with it (R117). -/
def State.advance (s : State) (i : Issue) : State :=
  let c := s.core
  if i.shadow then
    let sh := c.shadow
    { s with core := { c with shadow := { sh with word := sh.word + 1, idleRem := i.idle + 1 }, issuing := none } }
  else
    let k := c.cl i.c
    let follow := i.joined && i.c ≠ .S && c.qjump.isSome
    let k1 := { k with word := if follow then c.qjump.getD 0 else k.word + 1, idleRem := i.idle, mode := .running
                       wait := none, issuedNow := true, entered := false, lretAt := k.lret, anyAt := k.any, runAt := k.runStart, seqAt := c.seq + 1
                       tbase := if k.runStart then i.t else k.tbase, runStart := follow }
    let k2 := if !follow && k.word.toNat + 1 ≥ (s.header i.c).len then k1.retire else k1
    { s with core := { (c.setCl i.c k2) with issuing := none, cursor := i.c.idx + 1, seq := c.seq + 1 } }

/-- The word is held: nothing changes but that the cluster's turn on this cycle is over. -/
def State.hold (s : State) (i : Issue) : State :=
  let c := s.core
  if i.shadow then { s with core := { c with shadow := { c.shadow with idleRem := 1 }, issuing := none } }
  else
    let k := c.cl i.c
    { s with core := { (c.setCl i.c { k with mode := .instrWait, wait := some .held, entered := false })
                       with issuing := none, cursor := i.c.idx + 1 } }

/-- The fault information of an issuing word. -/
def Issue.info (i : Issue) (code engine : Nat) (status : BitVec 32) (x0 x1 : Word) (next : Bool) : FaultInfo :=
  ⟨code, .precise, engine, i.at_, next, status, x0, x1, none⟩

/-- ILLEGAL WORD status (R74). -/
def illegalStatus (reason opc fn low : Nat) : BitVec 32 :=
  BitVec.ofNat 8 reason ++ BitVec.ofNat 8 opc ++ BitVec.ofNat 4 fn ++ 0#5 ++ BitVec.ofNat 7 low

/-- A status word with the reason in [31:24] and the opcode in [23:16]. -/
def statusOpc (reason opc low : Nat) : BitVec 32 := BitVec.ofNat 8 reason ++ BitVec.ofNat 8 opc ++ BitVec.ofNat 16 low

/-- SCHEDULE MISS of an issuing word (R111). -/
def schedMiss (i : Issue) (cause detail : Nat) : Res := .fault 0x12 9 (statusOpc cause i.opc detail) 0 0

/-- The FN of an issuing word is not needed by R74 reason 6 alone, so meanings give it. -/
def illegalHere (i : Issue) (fn : Nat) : FaultInfo := i.info 1 8 (illegalStatus 6 i.opc fn 0) 0 0 false

/-- The word may not issue where it stands (R117, R353). -/
def Where.refuses (wh : Where) (i : Issue) : Bool := (i.joined && !wh.joined) || (i.shadow && !wh.shadow)

/-- Executing a word whose opcode is `opc` and function `fn`: where it may issue, what else its context must allow
(`legal`), its guard, and its effect `eff` on the state in which the word has just issued (R59, R72, R117). -/
def runWordIf (opc fn : Nat) (wh : Where) (legal : Issue → State → Bool) (hd : Head) (eff : Issue → State → Res)
    (s : State) : Host.Outcome State Fault Refusal :=
  let i := Issue.of s hd opc
  if wh.refuses i || !legal i s then .next (s.raise (illegalHere i fn))
  else if s.guard i hd = false then .next (s.advance i)
  else
    match eff i (s.advance i) with
    | .ok s' => .next s'
    | .fault code eng st x0 x1 => .next (s.raise (i.info code eng st x0 x1 false))
    | .hold =>
        if i.joined then .next (s.raise (i.info 0x12 9 (statusOpc 3 opc 0) 0 0 false)) else .next (s.hold i)

/-- A word that its context allows wherever `wh` does. -/
def runWord (opc fn : Nat) (wh : Where) (hd : Head) (eff : Issue → State → Res) (s : State) :
    Host.Outcome State Fault Refusal :=
  runWordIf opc fn wh (fun _ _ => true) hd eff s

/-! ### Register access of an issuing word -/

def State.readG (s : State) (i : Issue) (n : BitVec 5) : Word :=
  if i.shadow then s.core.shadow.readG n else (s.core.cl i.c).readG n

def State.readA (s : State) (i : Issue) (n : BitVec 4) : BitVec 32 := (s.core.cl i.c).readA n

def State.readP (s : State) (i : Issue) (n : BitVec 5) : Bool :=
  if i.shadow then s.core.shadow.readP n else (s.core.cl i.c).readP n

/-- An act `o` core cycles after the issue. -/
def State.after (s : State) (i : Issue) (o : Nat) (a : Act) : State := { s with core := s.core.sched (i.t + o) a }

/-- A register write of an issuing word at its offset; a shadow word's own registers are written by trunk cycle
(R146, R352). -/
def State.writeAfter (s : State) (i : Issue) (o : Nat) (a : Act) : State :=
  if i.shadow then
    { s with core := { s.core with shadow := { s.core.shadow with pend := s.core.shadow.pend ++ [(i.trunk + o, a)] } } }
  else s.after i o a

def State.writeGAfter (s : State) (i : Issue) (o : Nat) (n : BitVec 5) (v : Word) : State :=
  s.writeAfter i o (.wg i.c n v)

def State.writePAfter (s : State) (i : Issue) (o : Nat) (n : BitVec 5) (v : Bool) : State :=
  s.writeAfter i o (.wp i.c n v)

/-- The cluster of the issuing word changes. -/
def State.setCl (s : State) (c : Cluster) (k : ClusterSt) : State := { s with core := s.core.setCl c k }

/-- After a waiting instruction has issued, its cluster waits (R109). In a joined section a waiting instruction does
not wait, so callers test the condition first (R117). -/
def State.waitFor (s : State) (i : Issue) (w : Wait) : State :=
  s.setCl i.c { s.core.cl i.c with mode := .instrWait, wait := some w }

/-- A wait of S for what happens outside the core, as it was kept. -/
def State.waitKept (s : State) (w : Outside) : Option WaitKept :=
  s.waitLog.find? fun x => x.phase = s.core.phase && x.seq = s.core.s.seqAt && x.what = w

/-- It may end on this cycle: on a replay no earlier than it first did, and one that a strike met only after the cycles that are issued
again (R370). -/
def State.mayEnd (s : State) (w : Outside) : Bool :=
  match s.waitKept w with
  | none => true
  | some x => match x.ended with
    | some t => t ≤ s.ctime
    | none => !s.replaying

/-- It has ended on this cycle, for the first time or as it first did. -/
def State.noteEnd (s : State) (w : Outside) : State :=
  if (s.waitKept w).any (·.ended.isSome) then s
  else { s with waitLog := ⟨s.core.phase, s.core.s.seqAt, w, some s.ctime⟩ :: s.waitLog }

/-- A wait ends on this cycle: the next word issues no earlier than the cycle after, nor before t + 1 + IDLE (R109). -/
def State.endWait (s : State) (c : Cluster) : State :=
  let k := s.core.cl c
  s.setCl c { k with mode := .running, wait := none, idleRem := max k.idleRem 1, woke := k.idleRem = 0 }

/-- A wait that ends on this cycle, after which the next word may issue on this cycle (R129). -/
def State.endWaitNow (s : State) (c : Cluster) : State :=
  s.setCl c { s.core.cl c with mode := .running, wait := none }

end Sys2Proof.Machine
end

