-- ==== Sys2Proof/Machine/Operands.lean ====
section
/-! DEFINITION. The operand forms of the scalar words (R60, R155) and of the flag words (R270). -/

namespace Sys2Proof.Machine

/-- A source of class g, a, y or k; an a register is zero-extended (R155). -/
def State.readSrc (s : State) (i : Issue) : Src → Word
  | .g n => s.readG i n
  | .a n => 0#32 ++ s.readA i n
  | .y n => s.core.readY n
  | .k n => s.core.readK n

/-- A source of class g or y. -/
def State.readFSrc (s : State) (i : Issue) : FSrc → Word
  | .g n => s.readG i n
  | .y n => s.core.readY n

/-- An FP32 source: bits [31:0] (R155). -/
def State.readF32 (s : State) (i : Issue) (x : FSrc) : Val := Fmt.f32.value (fieldN (s.readFSrc i x) 0 32)

/-- IMM of format I, sign-extended to 64 bits (R155). -/
def immWord (imm : BitVec 56) : Word := imm.signExtend 64

/-- The source of LEA (R159). -/
def State.readLea (s : State) (i : Issue) : LeaSrc → Word
  | .g n => s.readG i n
  | .a n => 0#32 ++ s.readA i n

/-- The source of PGMOV (R161). -/
def State.readPg (s : State) (i : Issue) : PgSrc → Bool
  | .p n => s.readP i n
  | .g n => s.readG i n != 0

/-- The operand value of a flag or barrier word (R270). -/
def State.readFVal (s : State) (i : Issue) : FVal → BitVec 32
  | .imm v => v
  | .g n => (s.readG i n).setWidth 32
  | .y n => (s.core.readY n).setWidth 32
  | .k n => (s.core.readK n).setWidth 32

/-- An FP32 result, zero-extended into a g register (R155). -/
def f32Word (n : Nat) : Word := BitVec.ofNat 64 n

end Sys2Proof.Machine
end

