-- ==== Sys2Proof/Machine/Flags.lean ====
section
/-! DEFINITION. Conditions: CMP and FCMP.S (R157), the reached test of flags and barriers (R271), and the wait-for test
of sections (R113). -/

namespace Sys2Proof.Machine

/-- CMP's conditions (R157). -/
def Cond.holds (c : Cond) (a b : Word) : Bool :=
  match c with
  | .eq => a == b
  | .ne => a != b
  | .lt => a.slt b
  | .le => a.sle b
  | .gt => b.slt a
  | .ge => b.sle a
  | .ltu => a.ult b
  | .leu => a.ule b
  | .gtu => b.ult a
  | .geu => b.ule a

/-- FCMP.S's conditions on exact values; the zeros are equal (R157). -/
def FCond.holds (c : FCond) (a b : Val) : Bool :=
  let un := a.isNaN || b.isNaN
  match c with
  | .eq => a.eqv b
  | .ne => un || !a.eqv b
  | .lt => a.lt b
  | .le => a.lt b || a.eqv b
  | .gt => b.lt a
  | .ge => b.lt a || a.eqv b
  | .un => un
  | .or => !un

/-- A 32-bit counter has reached `v` (R271). -/
def reached (f v : BitVec 32) : Bool := (f - v).toNat < 2 ^ 31

/-- A wait-for number is met by a cluster whose last retired section is `lret` (R113). -/
def waitMet (any : Bool) (lret n : BitVec 10) : Bool := any && (lret - n).toNat < 512

/-- The clusters that the three wait-for fields name (R77). -/
def waitOrder : Cluster → List Cluster
  | .S => [.L, .M, .W]
  | .L => [.S, .M, .W]
  | .M => [.S, .L, .W]
  | .W => [.S, .L, .M]

/-- Every wait-for field of a header is met, as the clusters stood at the end of the previous cycle (R113, R114). -/
def Core.waitsMet (c : Core) (k : Cluster) (h : Header) : Bool :=
  (List.range 3).all fun i =>
    h.wait i == 0x3FF#10 ||
      match (waitOrder k)[i]? with
      | some o => waitMet (c.cl o).anyWas (c.cl o).lretWas (h.wait i)
      | none => true

end Sys2Proof.Machine
end

