-- ==== Sys2Proof/Machine/LocalStore.lean ====
section
/-! DEFINITION. Local store: the access calendar, bounds, phase regions and line locks (R169 to R181), the scalar
accesses LDS, STS, LDSX, STSX (R184, R185) and the phase words PHDECL and PHSW (R182, R183). -/

namespace Sys2Proof.Machine

/-! ## Schedules (R171, R172) -/

/-- One access of a word's schedule: a run of bytes on a cycle. `align` is the element size that R176 asks for, and
`allPorts` marks a gather cycle (R197). -/
structure Planned where
  cycle : Nat
  kind : Nat
  write : Bool
  addr : Int
  len : Nat
  align : Nat
  allPorts : Bool := false
  deriving DecidableEq, Repr

/-- Schedule order: cycle, then requester kind (R173, R176), then, among accesses of one kind on one cycle, the lowest address first,
as the chunks of one access go (DEDUCED, unsafe, log entry 57). -/
def Planned.before (a b : Planned) : Bool :=
  if a.cycle ≠ b.cycle then a.cycle < b.cycle
  else if a.kind ≠ b.kind then a.kind < b.kind
  else a.addr < b.addr

/-- Insertion into schedule order. -/
def Planned.insert (x : Planned) : List Planned → List Planned
  | [] => [x]
  | y :: ys => if x.before y then x :: y :: ys else y :: x.insert ys

/-- A schedule in order. -/
def sortPlan (ps : List Planned) : List Planned := ps.foldr Planned.insert []

def Planned.firstChunk (p : Planned) : Nat := p.addr.toNat / 16
def Planned.chunks (p : Planned) : Nat := if p.len = 0 then 0 else (p.addr.toNat + p.len - 1) / 16 - p.addr.toNat / 16 + 1

/-- What a check at issue gives. -/
inductive Check where
  | pass (s : State)
  | fault (code engine : Nat) (status : BitVec 32)
  | hold

/-! ## Bounds (R176) -/

/-- The LOCAL BOUNDS status word (R176). -/
def boundsStatus (reason kind : Nat) (addr : Int) : BitVec 32 :=
  BitVec.ofNat 2 reason ++ BitVec.ofNat 3 kind ++ 0#3 ++ BitVec.ofInt 24 addr

/-- The first offence of an access: its reason and byte address. Range is checked before alignment. -/
def Planned.offence (p : Planned) : Option (Nat × Int) :=
  if p.len = 0 then none
  else if p.addr < 0 then some (1, p.addr)
  else if p.addr + p.len > Config.lsBytes then some (1, max p.addr Config.lsBytes)
  else if p.addr % p.align ≠ 0 then some (2, p.addr)
  else none

/-- LOCAL BOUNDS of a sorted schedule: requester kind, reason and address. -/
def boundsOf (ps : List Planned) : Option (Nat × Nat × Int) :=
  ps.findSome? fun p => p.offence.map fun o => (p.kind, o)

/-! ## Phase regions (R177 to R181) -/

/-- Whether two byte ranges meet. -/
def meets (a n b m : Nat) : Bool := a < b + m && b < a + n && 0 < n && 0 < m

/-- The engine's bit in a set (R177). -/
def inSet (e : Nat) (x : BitVec 5) : Bool := bitAt x e

/-- The halves of a region that a byte range touches, with each half's number (R177). -/
def Region.halves (r : Region) (a n : Nat) : List Nat :=
  if r.db then (List.range 2).filter fun h => meets a n (r.base + h * (r.size / 2)) (r.size / 2)
  else if meets a n r.base r.size then [0] else []

/-- An access to half `h` is permitted (R178). -/
def Region.permits (r : Region) (e : Nat) (write : Bool) (h : Nat) : Bool :=
  if r.db then
    if h = r.front then !write && inSet e r.rd else write && inSet e r.wr
  else if write then inSet e r.wr else inSet e r.rd

/-- The PHASE OVERLAP status word (R180). -/
def overlapStatus (reason region other engine : Nat) (write : Bool) (half : Nat) : BitVec 32 :=
  BitVec.ofNat 8 reason ++ BitVec.ofNat 4 region ++ BitVec.ofNat 4 other ++ BitVec.ofNat 3 engine ++ bit1 write ++
    BitVec.ofNat 1 half ++ 0#11

/-- The region and half that refuse an access (R178): of several the lowest region, and of that the lower half. Callers report the
first access in schedule order that is refused (DEDUCED, unsafe, log entry 57). -/
def Core.refusal (c : Core) (e : Nat) (write : Bool) (a n : Nat) : Option (Nat × Nat) :=
  (List.range 16).findSome? fun i =>
    match c.regions.getD i none with
    | none => none
    | some r =>
        match (r.halves a n).find? fun h => !r.permits e write h with
        | some h => some (i, if r.db then h else 0)
        | none => none

/-- The slot of a half. -/
def Region.slot (r : Region) (h : Nat) : Option (BitVec 16) := if h = 0 then r.slot0 else r.slot1

def Region.setSlot (r : Region) (h : Nat) (v : Option (BitVec 16)) : Region :=
  if h = 0 then { r with slot0 := v } else { r with slot1 := v }

/-- The half whose slot a tag check reads (R179). -/
def Region.checkHalf (r : Region) : Nat := if r.db then r.front else 0

/-- A read of the range needs the region's tag check (R179). -/
def Region.tagDue (r : Region) (a n : Nat) : Bool := r.tag && !r.checked && (r.halves a n).contains r.checkHalf

/-- The SEQUENCE TAG status word (R179). -/
def tagStatus (region half : Nat) (slot : Option (BitVec 16)) : BitVec 32 :=
  0#10 ++ bit1 slot.isNone ++ BitVec.ofNat 1 half ++ BitVec.ofNat 4 region ++ slot.getD 0

/-- The first failing tag check of a read, if any: of several, that of the lowest region (R179; DEDUCED, unsafe, log entry 57). -/
def Core.tagFault (c : Core) (a n : Nat) : Option (BitVec 32) :=
  (List.range 16).findSome? fun i =>
    match c.regions.getD i none with
    | none => none
    | some r =>
        if r.tagDue a n && r.slot r.checkHalf ≠ some c.expTag then some (tagStatus i r.checkHalf (r.slot r.checkHalf))
        else none

/-- Regions whose tag check a read passes are marked checked. -/
def Core.markChecked (c : Core) (a n : Nat) : Core :=
  { c with regions := c.regions.map fun r => r.map fun r => if r.tagDue a n then { r with checked := true } else r }

/-! ## Bank conflicts (R173) -/

/-- One clash: bank, quarter and the other access. -/
structure Clash where
  bank : Nat
  qtr : Nat
  okind : Nat
  place : Place
  deriving DecidableEq, Repr

/-- The clash of one access with another of the same cycle: equal quarter ports of one bank. -/
def clashOf (p : Planned) (o : Access) : Option Clash :=
  if p.cycle ≠ o.cycle then none
  else if p.allPorts then
    (if o.chunks = 0 then none else some ⟨o.chunk / 4 % 32, o.chunk % 4, o.kind, o.at_⟩)
  else if o.allPorts then
    (if p.chunks = 0 then none else some ⟨p.firstChunk / 4 % 32, p.firstChunk % 4, o.kind, o.at_⟩)
  else
    (List.range p.chunks).findSome? fun i =>
      let x := p.firstChunk + i
      (List.range o.chunks).findSome? fun j =>
        if x % 128 = (o.chunk + j) % 128 then some ⟨x / 4 % 32, x % 4, o.kind, o.at_⟩ else none

/-- A clash within one word: two accesses of one cycle to different chunks of one port, or in different directions
(R171). -/
def selfClash (p : Planned) (o : Planned) (pl : Place) : Option Clash :=
  if p.cycle ≠ o.cycle then none
  else if p.allPorts || o.allPorts then none
  else
    (List.range p.chunks).findSome? fun i =>
      let x := p.firstChunk + i
      (List.range o.chunks).findSome? fun j =>
        let y := o.firstChunk + j
        if x % 128 = y % 128 && !(x = y && p.write = o.write) then some ⟨x / 4 % 32, x % 4, o.kind, pl⟩ else none

/-- The first clash of a sorted schedule, with the requester kind of this word's access. Where an access clashes with several, the
calendar's entries come first, the oldest before the others, and then the word's own accesses, the newest before the others (R173;
DEDUCED, unsafe, log entry 57). -/
def firstClash (cal : List Access) (pl : Place) : List Planned → List Planned → Option (Nat × Clash)
  | _, [] => none
  | seen, p :: ps =>
      match (cal.filter fun o => o.cycle = p.cycle).findSome? (clashOf p) with
      | some c => some (p.kind, c)
      | none =>
          match (seen.filter fun o => o.cycle = p.cycle).findSome? fun o => selfClash p o pl with
          | some c => some (p.kind, c)
          | none => firstClash cal pl (p :: seen) ps

/-- The BANK CONFLICT status word (R173). -/
def conflictStatus (c : Clash) : BitVec 32 :=
  BitVec.ofNat 5 c.bank ++ BitVec.ofNat 2 c.qtr ++ BitVec.ofNat 3 c.okind ++ c.place.sec ++ c.place.word

/-! ## Locks and the rollback area -/

/-- Lines that copy-ins have locked (R174). -/
def Core.lockedLines (c : Core) : List Nat := c.copyQ.flatMap fun q => q.lines.map (·.1)

def Planned.firstLine (p : Planned) : Nat := p.addr.toNat / 64
def Planned.lineCount (p : Planned) : Nat := if p.len = 0 then 0 else (p.addr.toNat + p.len - 1) / 64 - p.addr.toNat / 64 + 1

/-- A line of a byte range is locked. -/
def Core.rangeLocked (c : Core) (a n : Nat) : Bool :=
  0 < n && c.lockedLines.any fun l => a / 64 ≤ l && l ≤ (a + n - 1) / 64

/-- An access that is in the calendar and still to be made lies on one of the lines of the range (R174, R182). -/
def Core.rangeBusy (c : Core) (t a n : Nat) : Bool :=
  c.calendar.any fun o => t ≤ o.cycle && meets (a / 64) ((a + n + 63) / 64 - a / 64) (o.chunk / 4)
    ((o.chunk + o.chunks + 3) / 4 - o.chunk / 4)

/-- The units of core state that a write covers, for the rollback area: the memory and its 64-byte unit (R372). Registers, lanes and
tokens take none (DESIGN CHOICE, unsafe, log entry 70). -/
def unitsOf (m : Mem) (a n : Nat) : List Nat :=
  let code := match m with | .ls => 0 | .acc => 1 | .mr => 2 | .scale => 3 | .cb => 4
  (List.range ((a + n + 63) / 64 - a / 64)).map fun i => code * 2 ^ 20 + a / 64 + i

/-- The space of a phase in the rollback area has been freed: on a replay, from the moment on which it first was (R370, R372). -/
def State.freed (s : State) (phase : Nat) : Bool := s.freedLog.any fun x => x.2 = phase && !earlier s.now x.1

/-- Units for which the rollback area holds old contents (R372). -/
def State.areaUsed (s : State) : Nat := (s.core.touched.filter fun x => !s.freed x.1).length

/-- Old contents saved for units that a word will write (R372): `none` holds the word. -/
def State.touch (s : State) (us : List Nat) : Option State :=
  let c := s.core
  if !c.protectedPhase || us = [] then some s
  else
    let mine := (c.touched.filter (·.1 = c.phase)).map (·.2)
    let new := (us.filter fun u => !mine.contains u).eraseDups
    if new = [] then some s
    else if mine.length + new.length > s.rollbackArea / 64 then
      some { s with core := { c with protectedPhase := false } }
    else if s.areaUsed + new.length > s.rollbackArea / 64 then none
    else some { s with core := { c with touched := new.map (fun u => (c.phase, u)) ++ c.touched } }

/-- Old contents saved for units that an engine writes now (R372). It holds no cluster, and a write is never delayed: where other
phases fill the area, the current phase becomes unprotected (DESIGN CHOICE, unsafe, log entry 70). -/
def State.touchDue (s : State) (us : List Nat) : State :=
  (s.touch us).getD { s with core := { s.core with protectedPhase := false } }

/-! ## The checks of a word's schedule (R172 to R181, R285, R310) -/

/-- A line of a schedule is locked, so that the word is held at issue (R174). -/
def Core.planLocked (c : Core) (ps : List Planned) : Bool := ps.any fun p => c.rangeLocked p.addr.toNat p.len

/-- Bounds, phases, tags and calendar of a schedule, in this order; of each kind the first access in schedule order is reported (R173 to
R179; the order for vector, scalar and spill words DEDUCED, unsafe, log entry 57). Tags are checked at the word's issue, hence not while
a locked line holds it: the slot takes its tag when the copy-in completes (R174, R179). -/
def State.checkPlan (s : State) (i : Issue) (e : Nat) (ps : List Planned) : Option (Nat × Nat × BitVec 32) :=
  match boundsOf ps with
  | some (k, r, a) => some (0x14, k, boundsStatus r k a)
  | none =>
      match ps.findSome? fun p => (s.core.refusal e p.write p.addr.toNat p.len).map fun x => (p, x) with
      | some (p, r, h) => some (0x13, p.kind, overlapStatus 1 r 0 e p.write h)
      | none =>
          match ps.findSome? fun p =>
              if p.write || s.core.planLocked ps then none else (s.core.tagFault p.addr.toNat p.len).map fun st => (p.kind, st) with
          | some (k, st) => some (0x11, k, st)
          | none =>
              match firstClash s.core.calendar i.at_ [] ps with
              | some (k, c) => some (0x10, k, conflictStatus c)
              | none => none

/-- The schedule enters the calendar, and tag checks that it passed are marked. -/
def Core.enterPlan (c : Core) (i : Issue) (ps : List Planned) : Core :=
  let c1 := ps.foldl (fun c p => if p.write then c else c.markChecked p.addr.toNat p.len) c
  { c1 with calendar := c1.calendar ++ ps.map fun p =>
      { cycle := p.cycle, kind := p.kind, write := p.write, chunk := p.firstChunk, chunks := p.chunks
        allPorts := p.allPorts, at_ := i.at_ } }

/-- All checks of a word other than a copy-in: faults first, then the line locks, the rollback area, and at last the
calendar takes the schedule (R174; that a fault of a vector, scalar or spill word comes before a lock DEDUCED, unsafe, log
entry 57). `e` is the phase engine. -/
def State.lsCheck (s : State) (i : Issue) (e : Nat) (plan : List Planned) : Check :=
  let ps := sortPlan plan
  match s.checkPlan i e ps with
  | some (code, eng, st) => .fault code eng st
  | none =>
      if s.core.planLocked ps then .hold
      else
        match s.touch ((ps.filter (·.write)).flatMap fun p => unitsOf .ls p.addr.toNat p.len) with
        | none => .hold
        | some s1 => .pass { s1 with core := s1.core.enterPlan i ps }

/-- A check followed by an effect. -/
def Check.bind (c : Check) (k : State → Res) : Res :=
  match c with
  | .pass s => k s
  | .fault code eng st => .fault code eng st 0 0
  | .hold => .hold

/-! ## Scalar accesses (R184, R185) -/

/-- A load: one chunk-port read on t + 1, the register on t + 3 (R184). -/
def scalarLoad (g : BitVec 5) (addr : Int) (sz : BitVec 2) (sx : Bool) (i : Issue) (s : State) : Res :=
  (s.lsCheck i 3 [⟨i.t + 1, 0, false, addr, 2 ^ sz.toNat, 2 ^ sz.toNat, false⟩]).bind fun s =>
    .ok (s.after i 1 (.load g addr.toNat sz.toNat sx))

/-- A store: performs on t + 1 (R184). -/
def scalarStore (v : Word) (addr : Int) (sz : BitVec 2) (i : Issue) (s : State) : Res :=
  (s.lsCheck i 3 [⟨i.t + 1, 0, true, addr, 2 ^ sz.toNat, 2 ^ sz.toNat, false⟩]).bind fun s =>
    .ok (s.after i 1 (.wr .ls [(addr.toNat, 2 ^ sz.toNat)] (toBytes (2 ^ sz.toNat) v.toNat)))

/-- The address of LDS and STS, exact (R184). -/
def ldsAddr (s : State) (i : Issue) (a : BitVec 4) (off : BitVec 32) : Int := (s.readA i a).toNat + off.toInt

/-- The address of LDSX and STSX, exact (R185). -/
def ldsxAddr (s : State) (i : Issue) (a : BitVec 4) (gi : BitVec 5) (sz : BitVec 2) (sc : Bool) : Int :=
  (s.readA i a).toNat + (s.readG i gi).toInt * 2 ^ (if sc then sz.toNat else 0)

def execLds (hd : Head) (g : BitVec 5) (a : BitVec 4) (sz : BitVec 2) (sx : Bool) (off : BitVec 32) (s : State) :=
  runWord 0x2A 0 .noShadow hd (fun i s => scalarLoad g (ldsAddr s i a off) sz sx i s) s

def execSts (hd : Head) (g : BitVec 5) (a : BitVec 4) (sz : BitVec 2) (off : BitVec 32) (s : State) :=
  runWord 0x2A 1 .noShadow hd (fun i s => scalarStore (s.readG i g) (ldsAddr s i a off) sz i s) s

def execLdsx (hd : Head) (g : BitVec 5) (a : BitVec 4) (gi : BitVec 5) (sz : BitVec 2) (sx sc : Bool) (s : State) :=
  runWord 0x2B 0 .noShadow hd (fun i s => scalarLoad g (ldsxAddr s i a gi sz sc) sz sx i s) s

def execStsx (hd : Head) (g : BitVec 5) (a : BitVec 4) (gi : BitVec 5) (sz : BitVec 2) (sc : Bool) (s : State) :=
  runWord 0x2B 1 .noShadow hd (fun i s => scalarStore (s.readG i g) (ldsxAddr s i a gi sz sc) sz i s) s

/-! ## PHDECL (R182) -/

/-- The region a PHDECL declares: H0 is front, every slot is empty (R182). -/
def declared (base size : BitVec 14) (rd wr : BitVec 5) (db tag : Bool) : Region :=
  { base := base.toNat * 256, size := (size.toNat + 1) * 256, rd := rd, wr := wr, db := db, tag := tag, front := 0
    slot0 := none, slot1 := none, checked := false }

/-- No access of another word to the range is pending or still to be made, and no lock lies there. -/
def Core.rangeIdle (c : Core) (t a n : Nat) : Bool := !c.rangeBusy t a n && !c.rangeLocked a n

/-- PHDECL's condition (R182). -/
def Core.phdeclReady (c : Core) (t : Nat) (ix : BitVec 4) (r : Option Region) : Bool :=
  (match c.regions[ix.toNat]'(by omega) with | some o => c.rangeIdle t o.base o.size | none => true) &&
    (match r with | some n => c.rangeIdle t n.base n.size | none => true)

/-- The declared region other than `ix` that a new range overlaps where either may be written, the lowest of several (R182;
DEDUCED, unsafe, log entry 57). -/
def Core.overlapped (c : Core) (ix : BitVec 4) (r : Region) : Option Nat :=
  (List.range 16).find? fun j =>
    j ≠ ix.toNat && match c.regions.getD j none with
      | some o => meets r.base r.size o.base o.size && (r.wr ≠ 0 || o.wr ≠ 0)
      | none => false

/-- PHDECL on a cycle `t`: not yet, PHASE OVERLAP reason 2 with engine 9 (DEDUCED, unsafe, log entry 14), or done (R182). -/
def phdeclStep (ix : BitVec 4) (r : Option Region) (t : Nat) (s : State) : Res :=
  if s.core.phdeclReady t ix r then
    match r.bind (s.core.overlapped ix) with
    | some o => .fault 0x13 9 (overlapStatus 2 ix.toNat o 0 false 0) 0 0
    | none => .ok { s with core := s.core.sched (t + 1) (.region ix r) }
  else .hold

/-- A waiting instruction whose condition does not hold on its issue cycle waits in a free section; in a joined one it
raises SCHEDULE MISS cause 3 (R109, R117). -/
def Res.orWait (r : Res) (i : Issue) (s : State) (w : Wait) : Res :=
  match r with
  | .hold => if i.joined then schedMiss i 3 0 else .ok (s.waitFor i w)
  | r => r

def execPhdecl (hd : Head) (ix : BitVec 4) (base size : BitVec 14) (rd wr : BitVec 5) (db tag : Bool) (s : State) :=
  runWord 0x15 0 .noShadow hd (fun i s =>
    let r := some (declared base size rd wr db tag)
    (phdeclStep ix r i.t s).orWait i s (.phdecl ix r)) s

def execPhdeclClear (hd : Head) (ix : BitVec 4) (s : State) :=
  runWord 0x15 0 .noShadow hd (fun i s => (phdeclStep ix none i.t s).orWait i s (.phdecl ix none)) s

/-! ## PHSW (R183) -/

/-- A copy-in whose last write has not performed targets the range. -/
def Core.copyTargets (c : Core) (a n : Nat) : Bool :=
  0 < n && c.copyQ.any fun q => !q.done && q.lines.any fun l => a / 64 ≤ l.1 && l.1 ≤ (a + n - 1) / 64

/-- Nothing is pending or still to be made in a declared region, and no copy-in targets one (R183). -/
def Core.phswReady (c : Core) (t : Nat) : Bool :=
  c.regions.all fun r => match r with
    | some r => !c.rangeBusy t r.base r.size && !c.copyTargets r.base r.size
    | none => true

/-- A region across a swap: the halves exchange, the new back's slot empties, the checked mark clears (R183). -/
def Region.swap (r : Region) : Region :=
  if r.db then { (r.setSlot r.front none) with front := 1 - r.front, checked := false }
  else { r with checked := false }

/-- The front half of a DB region, as base and size (R177). -/
def Region.frontHalf (r : Region) : Option (Nat × Nat) :=
  if r.db then some (r.base + r.front * (r.size / 2), r.size / 2) else none

/-- The front halves of the declared regions: the input buffers of the phase (R181). -/
def Core.frontHalves (c : Core) : List (Nat × Nat) := c.regions.toList.filterMap fun r => r.bind Region.frontHalf

/-- The current phase ends on this trunk cycle (R181, R372, R373). -/
def State.endPhase (s : State) : State :=
  let end_ := fun (n : Snap) => if n.ended = none then { n with ended := some s.trunk, covered := s.core.protectedPhase } else n
  { s with snaps := s.snaps.map end_ }

/-- The phase changes on core cycle `t` (R181, R183, R372). L, M and W of free sections issue no word on this cycle; those of a joined
one are checked against the new phase on it (DEDUCED, unsafe, log entry 71). -/
def State.swapPhase (s : State) (t : Nat) (tag : BitVec 16) (joined : Bool) : State :=
  let c := s.core
  let c1 := { c with regions := c.regions.map fun r => r.map Region.swap
                     fronts := c.frontHalves.map (fun f => (t, f)) ++ c.fronts.filter (fun f => t < f.1 + Config.finality)
                     phase := c.phase + 1, expTag := tag, swapCore := some t, swapTrunk := some s.trunk
                     phaseIdx := 0, protectedPhase := true, holdOthers := !joined }
  { s.endPhase with core := c1 }

/-- PHSW on a cycle: not yet, or the swap with g[D] on the next cycle. -/
def phswStep (g : BitVec 5) (tag : BitVec 16) (joined : Bool) (t : Nat) (s : State) : Res :=
  if s.core.phswReady t then
    let s1 := s.swapPhase t tag joined
    .ok { s1 with core := s1.core.sched (t + 1) (.wg .S g (BitVec.ofNat 64 s1.core.phase)) }
  else .hold

/-- L, M and W are held from the issue cycle on (R108, R183). -/
def State.holdLMW (s : State) : State := { s with core := { s.core with holdOthers := true } }

def execPhsw (hd : Head) (g : BitVec 5) (tag : BitVec 16) (s : State) :=
  runWord 0x16 0 .noShadow hd (fun i s => (phswStep g tag i.joined i.t s).orWait i s.holdLMW (.phsw g tag)) s

end Sys2Proof.Machine
end

