-- ==== Sys2Proof/Machine/Control.lean ====
section
/-! DEFINITION. The control and time words (R129 to R141), but for ERET, which stands in Faults.lean, and QUIET and YIELD,
which stand in Issue.lean. -/

namespace Sys2Proof.Machine

/-! ## Entering sections (R79, R82, R114, R133) -/

/-- The cluster is to enter the section at `off` at a word: it moves to entry wait, and its header is checked on the
first cycle on which it could issue (R114). -/
def ClusterSt.enter (k : ClusterSt) (off : Nat) (h : Header) (w : BitVec 12) : ClusterSt :=
  { k with sec := h.secno, hdr := off, leftHdr := k.hdr, word := w, entry := w, mode := .entryWait, unchecked := true, runStart := true }

/-- BRANCH TARGET with a status (R133). -/
def branchTarget (status : BitVec 32) : Res := .fault 0x05 9 status 0 0

/-- What a target names: a word of the own section, a section with a word, or a status of R133. -/
inductive Target where
  | own (w : BitVec 12)
  | other (off : Nat) (h : Header) (w : BitVec 12)
  | bad (status : BitVec 32)
  deriving DecidableEq, Repr

/-- A word of the own section, which LOOP, LOOPX and the words of a joined section name (R117, R138). -/
def State.ownTarget (s : State) (i : Issue) (w : BitVec 12) : Target :=
  if w.toNat < (headerAt s.activePlane i.hdr).len then .own w else .bad 2

/-- The lookup of R82 with the checks of R115 and R133: the first section of the kind with the number, which is the running one where its
header stands there. A word index of a joined section that is neither 0 nor below LEN gives status 2 (DEDUCED, unsafe, log entry 72). -/
def State.target (s : State) (i : Issue) (sec : BitVec 10) (w : BitVec 12) : Target :=
  if i.joined then s.ownTarget i w
  else
    match findSection s.activePlane i.c sec with
    | none => .bad 1
    | some (off, h) =>
        if w.toNat ≥ h.len then .bad 2
        else if off = i.hdr then .own w
        else if h.sync && w ≠ 0 then .bad 3 else .other off h w

/-- A transfer within the own section: nothing retires (R112), and a joined quartet moves together (R117). -/
def State.jumpOwn (s : State) (i : Issue) (w : BitVec 12) : State :=
  if i.shadow then { s with core := { s.core with shadow := { s.core.shadow with word := w } } }
  else
    let k := s.core.cl i.c
    let s1 := s.setCl i.c { k with word := w, lret := k.lretWas, any := k.anyWas, runStart := true }
    if i.joined then { s1 with core := { s1.core with qjump := some w } } else s1

/-- A transfer to another section: the own section retires and the target is entered (R112, R114). The shadow context
has no entry wait. -/
def State.jumpTo (s : State) (i : Issue) (off : Nat) (h : Header) (w : BitVec 12) : State :=
  if i.shadow then
    { s with core := { s.core with shadow :=
        { s.core.shadow with sec := h.secno, hdr := off, word := w, unchecked := true } } }
  else s.setCl i.c (({ s.core.cl i.c with lret := i.at_.sec, any := true }).enter off h w)

/-- A taken transfer. -/
def State.transfer (s : State) (i : Issue) : Target → Res
  | .own w => .ok (s.jumpOwn i w)
  | .other off h w => .ok (s.jumpTo i off h w)
  | .bad st => branchTarget st

/-- The section number of a packed target (R133). -/
def packedSec (v : Word) : BitVec 10 := field v 12 10
def packedWord (v : Word) : BitVec 12 := field v 0 12

/-- A transfer to a packed target (R133). -/
def State.transferPacked (s : State) (i : Issue) (v : Word) : Res :=
  if field v 22 42 ≠ 0 then branchTarget 4 else s.transfer i (s.target i (packedSec v) (packedWord v))

/-- The link of CALL (R136). -/
def linkOf (i : Issue) : Word := 0#42 ++ i.at_.sec ++ (i.at_.word + 1)

/-- A word index and section that a joined section allows (R117). -/
def ownIfJoined (sec : BitVec 10) (i : Issue) (_ : State) : Bool := !i.joined || sec = i.at_.sec

def execNop (hd : Head) (s : State) := runWord 0x01 0 .both hd (fun _ s => .ok s) s

/-- IDLE (R135). -/
def execIdle (hd : Head) (n : BitVec 16) (s : State) :=
  runWord 0x02 0 .freeOnly hd
    (fun i s => .ok (s.setCl i.c { s.core.cl i.c with idleRem := n.toNat + i.idle })) s

def execBr (hd : Head) (tgt : BitVec 12) (sec : BitVec 10) (s : State) :=
  runWordIf 0x03 0 .both (ownIfJoined sec) hd (fun i s => s.transfer i (s.target i sec tgt)) s

def execBrx (hd : Head) (g : BitVec 5) (s : State) :=
  runWord 0x04 0 .freeOrShadow hd (fun i s => s.transferPacked i (s.readG i g)) s

/-- CALL writes its link on t + 1, with the transfer (R136, R146). -/
def execCall (hd : Head) (g : BitVec 5) (tgt : BitVec 12) (sec : BitVec 10) (s : State) :=
  runWord 0x05 0 .freeOrShadow hd
    (fun i s => (s.writeGAfter i 1 g (linkOf i)).transfer i (s.target i sec tgt)) s

def execRet (hd : Head) (g : BitVec 5) (s : State) :=
  runWord 0x06 0 .freeOrShadow hd (fun i s => s.transferPacked i (s.readG i g)) s

/-! ## JSEC (R118, R137) -/

/-- A section number, or BRANCH TARGET status 1 for a register value that is none (R137). -/
def State.secRef (s : State) (i : Issue) : SecRef → Option (BitVec 10)
  | .num n => some n
  | .reg g =>
      let v := s.readG i g
      if field v 10 54 ≠ 0 ∨ field v 0 10 = 0x3FF#10 then none else some (field v 0 10)

/-- JSEC of the S cluster retires the section even where its target is the own section (R112). A section with LEN 0 has no
word 0, so it raises BRANCH TARGET status 2, before its header is checked (DEDUCED, unsafe, log entry 57). -/
def State.jumpSection (s : State) (i : Issue) (n : BitVec 10) : Res :=
  match findSection s.activePlane i.c n with
  | none => branchTarget 1
  | some (off, h) => if h.len = 0 then branchTarget 2 else .ok (s.jumpTo i off h 0)

def execJsec (hd : Head) (t : SecRef) (s : State) :=
  runWord 0x07 0 .freeOrShadow hd
    (fun i s => match s.secRef i t with | some n => s.jumpSection i n | none => branchTarget 1) s

/-- The cluster that a steer names. -/
def steered : Steered → Cluster
  | .L => .L
  | .M => .M
  | .W => .W

/-- A steer written on cycle `t`, or not yet while one is pending (R118, R137). -/
def steerStep (c : Cluster) (dst : SteerTo) (t : Nat) (s : State) : Res :=
  let k := s.core.cl c
  if k.steer.isSome then .hold else .ok (s.setCl c { k with steer := some dst, steerAt := t })

/-- A steering JSEC: SCHEDULE MISS cause 5 in a joined section where the steer is pending, else a wait (R117, R137). -/
def steerWord (c : Steered) (dst : SteerTo) (i : Issue) (s : State) : Res :=
  match steerStep (steered c) dst i.t s with
  | .hold => if i.joined then schedMiss i 5 (steered c).idx else .ok (s.waitFor i (.steer (steered c) dst))
  | r => r

def execJsecSteer (hd : Head) (c : Steered) (t : SecRef) (s : State) :=
  runWord 0x07 0 .noShadow hd
    (fun i s => match s.secRef i t with | some n => steerWord c (.sec n) i s | none => branchTarget 1) s

def execJsecPark (hd : Head) (c : Steered) (s : State) :=
  runWord 0x07 0 .noShadow hd (fun i s => steerWord c .park i s) s

/-! ## Counted loops (R138) -/

/-- SEC names the own section (R117, R138). -/
def ownSection (sec : BitVec 10) (i : Issue) (_ : State) : Bool := sec = i.at_.sec

def execLoop (hd : Head) (g : BitVec 5) (tgt : BitVec 12) (sec : BitVec 10) (s : State) :=
  runWordIf 0x08 0 .both (ownSection sec) hd (fun i s =>
    let v := s.readG i g - 1
    let s1 := s.writeGAfter i 1 g v
    if v ≠ 0 then s1.transfer i (s.ownTarget i tgt) else .ok s1) s

/-- A write of a shared register by an issuing word; a handler's write performs on the frozen cycle (R146, R353). -/
def State.writeShared (s : State) (i : Issue) (o : Nat) (a : Act) (now : Core → Core) : State :=
  if i.shadow then { s with core := now s.core } else s.after i o a

def execLoopx (hd : Head) (k : BitVec 3) (e : BitVec 5) (step : BitVec 16) (tgt : BitVec 12) (sec : BitVec 10)
    (s : State) :=
  runWordIf 0x09 0 .both (ownSection sec) hd (fun i s =>
    let v := s.core.readK k + step.setWidth 64
    let s1 := s.writeShared i 1 (.wk k v) (·.writeK k v)
    if v.ult (s.readG i e) then s1.transfer i (s.ownTarget i tgt) else .ok s1) s

/-! ## Waiting for a time, an event or a quiet point -/

/-- The core time that WAITT waits for (R139). -/
def State.waitTarget (s : State) (i : Issue) : WaitTo → Nat
  | .abs g => (s.readG i g).toNat
  | .rel n => i.t + n.toNat

def execWaitt (hd : Head) (w : WaitTo) (s : State) :=
  runWord 0x0A 0 .noShadow hd (fun i s =>
    if s.waitTarget i w ≤ i.t + 1 + i.idle then .ok s
    else if i.joined then schedMiss i 3 0
    else .ok (s.waitFor i (.untilTime (s.waitTarget i w)))) s

/-- HALT: the S cluster is halted until an event is pending at a quiet point (R131). -/
def execHalt (hd : Head) (s : State) :=
  runWord 0x0B 0 .freeOnly hd (fun i s => .ok (s.setCl i.c { s.core.cl i.c with mode := .halted })) s

/-! ## Clocks (R140) -/

def execTime (hd : Head) (g : BitVec 5) (s : State) :=
  runWord 0x0E 0 .both hd (fun i s => .ok (s.writeGAfter i 1 g (BitVec.ofNat 64 i.t))) s

def execTrunk (hd : Head) (g : BitVec 5) (s : State) :=
  runWord 0x0F 0 .both hd (fun i s => .ok (s.writeGAfter i 1 g (BitVec.ofNat 64 i.trunk))) s

/-! ## TRAP and BKPT (R141, R353, R362) -/

/-- Software trap `n` as a fault (R141). -/
def trapInfo (i : Issue) (n : BitVec 5) : FaultInfo := i.info (0x80 + n.toNat) 9 0 0 0 true

/-- FINAL is set in one record of a list: no two records agree in the trunk cycle and in the sequence number (R351, R353). -/
def markFinal (x : FRec) (rs : List FRec) : List FRec :=
  rs.map fun r => if r = x then { r with w1 := r.w1 ||| BitVec.twoPow 64 53 } else r

/-- The record of the fault being handled gains FINAL: in the die's buffer, or, copied already, in its tenant's fault queue (R353,
R355). -/
def State.markHandled (s : State) : State :=
  match s.core.handled with
  | none => s
  | some x =>
      { s with faultBuf := markFinal x s.faultBuf
               tenants := s.tenants.map fun t => if t.id = s.core.tenant then { t with faults := markFinal x t.faults } else t }

/-- TRAP in the shadow context ends the context: FINAL, a second record, and the core stays frozen (R353). -/
def State.endContext (s : State) (f : FaultInfo) : State :=
  let s1 := s.markHandled
  let s2 := if s1.faultBuf.length < Config.faultBufferSize then s1.pushRec (s1.record f true false)
    else { s1 with overflow := true, core := { s1.core with heldRec := some (s1.record f true false, f) } }
  { s2 with core := { s2.core with freeze := .stopped :: s2.core.freeze, issuing := none } }

def execTrap (hd : Head) (n : BitVec 5) (s : State) :=
  runWord 0x10 0 .both hd (fun i s =>
    .ok (if i.shadow then s.endContext (trapInfo i n) else s.raise (trapInfo i n))) s

/-- BREAKPOINT with its tag (R141). -/
def bkptInfo (i : Issue) (tag : BitVec 8) : FaultInfo := i.info 0xA0 9 (0#24 ++ tag) 0 0 true

/-- A debugger is attached for the tenant of the context (R362). -/
def State.attached (s : State) : Bool := s.debugger = some s.core.tenant

/-- A breakpoint under a debugger: its record is written and the core is held in the freeze view (R141, R362). -/
def State.holdForDebugger (s : State) (f : FaultInfo) : State :=
  let s := s.noteFault f
  if s.faultBuf.length < Config.faultBufferSize then
    let s1 := s.pushRec (s.record f false false)
    { s1 with core := { s1.core with freeze := .debug :: s1.core.freeze, handling := some f, issuing := none, stepRem := none } }
  else
    { s with overflow := true
             core := { s.core with heldRec := some (s.record f false false, f), freeze := .buffer :: s.core.freeze
                                   issuing := none } }

def execBkpt (hd : Head) (tag : BitVec 8) (s : State) :=
  runWord 0x12 0 .noShadow hd (fun i s =>
    .ok (if s.attached then s.holdForDebugger (bkptInfo i tag) else s.raise (bkptInfo i tag))) s

end Sys2Proof.Machine
end

