-- ==== Sys2Proof/Machine/Scalar.lean ====
section
/-! DEFINITION. The scalar ALU, the moves between registers, the predicate operations, MFS and MTS (R155 to R162). -/

namespace Sys2Proof.Machine

/-! ## Integer results (R156) -/

/-- The high half of the signed product. -/
def mulHigh (a b : Word) : Word := BitVec.ofInt 64 (a.toInt * b.toInt / 2 ^ 64)

/-- Signed division truncating toward zero; a zero divisor gives all ones. -/
def divWord (a b : Word) : Word := if b = 0 then BitVec.allOnes 64 else BitVec.ofInt 64 (a.toInt.tdiv b.toInt)

/-- The signed remainder with the sign of `a`; a zero divisor gives `a`. -/
def remWord (a b : Word) : Word := if b = 0 then a else BitVec.ofInt 64 (a.toInt.tmod b.toInt)

def shlWord (a b : Word) : Word := a <<< (b.toNat % 64)
def shrWord (a b : Word) : Word := a >>> (b.toNat % 64)
def sarWord (a b : Word) : Word := a.sshiftRight (b.toNat % 64)
def rolWord (a b : Word) : Word := a.rotateLeft (b.toNat % 64)
def minWord (a b : Word) : Word := if b.slt a then b else a
def maxWord (a b : Word) : Word := if a.slt b then b else a
def andnWord (a b : Word) : Word := a &&& ~~~b

/-- The number of leading zeros of the low `n` bits. -/
def clzFrom (a : Word) : Nat → Nat
  | 0 => 0
  | n + 1 => if a.getLsbD n then 0 else clzFrom a n + 1

/-- The number of ones among the low `n` bits. -/
def popFrom (a : Word) : Nat → Nat
  | 0 => 0
  | n + 1 => (if a.getLsbD n then 1 else 0) + popFrom a n

def clzWord (a : Word) : Word := BitVec.ofNat 64 (clzFrom a 64)
def popcWord (a : Word) : Word := BitVec.ofNat 64 (popFrom a 64)

/-- A binary integer operation: both sources on the issue cycle, the result on t + `o` (R145, R146). -/
def aluWord (fn o : Nat) (f : Word → Word → Word) (hd : Head) (d : BitVec 5) (s1 s2 : Src) (s : State) :=
  runWord 0x20 fn .both hd (fun i s => .ok (s.writeGAfter i o d (f (s.readSrc i s1) (s.readSrc i s2)))) s

/-- The same with a sign-extended immediate. -/
def aluImm (fn : Nat) (f : Word → Word → Word) (hd : Head) (d : BitVec 5) (s1 : Src) (imm : BitVec 56) (s : State) :=
  runWord 0x21 fn .both hd (fun i s => .ok (s.writeGAfter i 1 d (f (s.readSrc i s1) (immWord imm)))) s

def execAdd (hd : Head) (d : BitVec 5) (s1 s2 : Src) (s : State) := aluWord 0 1 (· + ·) hd d s1 s2 s
def execSub (hd : Head) (d : BitVec 5) (s1 s2 : Src) (s : State) := aluWord 1 1 (· - ·) hd d s1 s2 s
def execMul (hd : Head) (d : BitVec 5) (s1 s2 : Src) (s : State) := aluWord 2 3 (· * ·) hd d s1 s2 s
def execMulh (hd : Head) (d : BitVec 5) (s1 s2 : Src) (s : State) := aluWord 3 3 mulHigh hd d s1 s2 s
def execDiv (hd : Head) (d : BitVec 5) (s1 s2 : Src) (s : State) := aluWord 4 18 divWord hd d s1 s2 s
def execRem (hd : Head) (d : BitVec 5) (s1 s2 : Src) (s : State) := aluWord 5 18 remWord hd d s1 s2 s
def execAnd (hd : Head) (d : BitVec 5) (s1 s2 : Src) (s : State) := aluWord 6 1 (· &&& ·) hd d s1 s2 s
def execOr (hd : Head) (d : BitVec 5) (s1 s2 : Src) (s : State) := aluWord 7 1 (· ||| ·) hd d s1 s2 s
def execXor (hd : Head) (d : BitVec 5) (s1 s2 : Src) (s : State) := aluWord 8 1 (· ^^^ ·) hd d s1 s2 s
def execAndn (hd : Head) (d : BitVec 5) (s1 s2 : Src) (s : State) := aluWord 9 1 andnWord hd d s1 s2 s
def execShl (hd : Head) (d : BitVec 5) (s1 s2 : Src) (s : State) := aluWord 10 1 shlWord hd d s1 s2 s
def execShr (hd : Head) (d : BitVec 5) (s1 s2 : Src) (s : State) := aluWord 11 1 shrWord hd d s1 s2 s
def execSar (hd : Head) (d : BitVec 5) (s1 s2 : Src) (s : State) := aluWord 12 1 sarWord hd d s1 s2 s
def execRol (hd : Head) (d : BitVec 5) (s1 s2 : Src) (s : State) := aluWord 13 1 rolWord hd d s1 s2 s
def execMin (hd : Head) (d : BitVec 5) (s1 s2 : Src) (s : State) := aluWord 14 1 minWord hd d s1 s2 s
def execMax (hd : Head) (d : BitVec 5) (s1 s2 : Src) (s : State) := aluWord 15 1 maxWord hd d s1 s2 s

def execAddi (hd : Head) (d : BitVec 5) (s1 : Src) (imm : BitVec 56) (s : State) := aluImm 0 (· + ·) hd d s1 imm s
def execAndImm (hd : Head) (d : BitVec 5) (s1 : Src) (imm : BitVec 56) (s : State) :=
  aluImm 6 (· &&& ·) hd d s1 imm s
def execOrImm (hd : Head) (d : BitVec 5) (s1 : Src) (imm : BitVec 56) (s : State) :=
  aluImm 7 (· ||| ·) hd d s1 imm s
def execXorImm (hd : Head) (d : BitVec 5) (s1 : Src) (imm : BitVec 56) (s : State) :=
  aluImm 8 (· ^^^ ·) hd d s1 imm s
def execAndnImm (hd : Head) (d : BitVec 5) (s1 : Src) (imm : BitVec 56) (s : State) := aluImm 9 andnWord hd d s1 imm s
def execShlImm (hd : Head) (d : BitVec 5) (s1 : Src) (imm : BitVec 56) (s : State) := aluImm 10 shlWord hd d s1 imm s
def execShrImm (hd : Head) (d : BitVec 5) (s1 : Src) (imm : BitVec 56) (s : State) := aluImm 11 shrWord hd d s1 imm s
def execSarImm (hd : Head) (d : BitVec 5) (s1 : Src) (imm : BitVec 56) (s : State) := aluImm 12 sarWord hd d s1 imm s
def execRolImm (hd : Head) (d : BitVec 5) (s1 : Src) (imm : BitVec 56) (s : State) := aluImm 13 rolWord hd d s1 imm s
def execMinImm (hd : Head) (d : BitVec 5) (s1 : Src) (imm : BitVec 56) (s : State) := aluImm 14 minWord hd d s1 imm s
def execMaxImm (hd : Head) (d : BitVec 5) (s1 : Src) (imm : BitVec 56) (s : State) := aluImm 15 maxWord hd d s1 imm s

def execClz (hd : Head) (d : BitVec 5) (s1 : Src) (s : State) :=
  runWord 0x22 0 .both hd (fun i s => .ok (s.writeGAfter i 1 d (clzWord (s.readSrc i s1)))) s

def execPopc (hd : Head) (d : BitVec 5) (s1 : Src) (s : State) :=
  runWord 0x22 1 .both hd (fun i s => .ok (s.writeGAfter i 1 d (popcWord (s.readSrc i s1)))) s

def execLdi (hd : Head) (d : BitVec 5) (imm : BitVec 56) (s : State) :=
  runWord 0x23 0 .both hd (fun i s => .ok (s.writeGAfter i 1 d (immWord imm))) s

def execSel (hd : Head) (d p : BitVec 5) (s2 s3 : Src) (s : State) :=
  runWord 0x24 0 .both hd
    (fun i s => .ok (s.writeGAfter i 1 d (if s.readP i p then s.readSrc i s2 else s.readSrc i s3))) s

def execCmp (hd : Head) (p : BitVec 5) (s1 s2 : Src) (c : Cond) (s : State) :=
  runWord 0x25 0 .both hd
    (fun i s => .ok (s.writePAfter i 1 p (Cond.holds c (s.readSrc i s1) (s.readSrc i s2)))) s

/-! ## FP32 (R158) -/

/-- RoundTo(f32, x, rne) as a register value. -/
def rneF32 (x : Val) : Word := f32Word (convertTo .f32 x .rne false)

/-- A binary FP32 operation; the result on t + 3. -/
def floatWord (fn : Nat) (f : Val → Val → Val) (hd : Head) (d : BitVec 5) (s1 s2 : FSrc) (s : State) :=
  runWord 0x26 fn .both hd
    (fun i s => .ok (s.writeGAfter i 3 d (rneF32 (f (s.readF32 i s1) (s.readF32 i s2))))) s

def execFadds (hd : Head) (d : BitVec 5) (s1 s2 : FSrc) (s : State) := floatWord 0 (Val.add false) hd d s1 s2 s
def execFmuls (hd : Head) (d : BitVec 5) (s1 s2 : FSrc) (s : State) := floatWord 1 Val.mul hd d s1 s2 s
def execFmins (hd : Head) (d : BitVec 5) (s1 s2 : FSrc) (s : State) := floatWord 4 Val.smaller hd d s1 s2 s
def execFmaxs (hd : Head) (d : BitVec 5) (s1 s2 : FSrc) (s : State) := floatWord 5 Val.larger hd d s1 s2 s

def execFfmas (hd : Head) (d : BitVec 5) (s1 s2 s3 : FSrc) (s : State) :=
  runWord 0x26 2 .both hd (fun i s =>
    .ok (s.writeGAfter i 4 d (rneF32 (((s.readF32 i s1).mul (s.readF32 i s2)).add false (s.readF32 i s3))))) s

def execFcmps (hd : Head) (p : BitVec 5) (s1 s2 : FSrc) (c : FCond) (s : State) :=
  runWord 0x26 3 .both hd
    (fun i s => .ok (s.writePAfter i 3 p (FCond.holds c (s.readF32 i s1) (s.readF32 i s2)))) s

/-! ## Address registers (R159) -/

def execLea (hd : Head) (a : BitVec 4) (s1 : LeaSrc) (imm : BitVec 56) (s : State) :=
  runWord 0x27 0 .noShadow hd
    (fun i s => .ok (s.after i 1 (.wa i.c a ((s.readLea i s1 + immWord imm).setWidth 32)))) s

def execAinc (hd : Head) (a : BitVec 4) (imm : BitVec 56) (s : State) :=
  runWord 0x27 1 .noShadow hd
    (fun i s => .ok (s.after i 1 (.wa i.c a (s.readA i a + (immWord imm).setWidth 32)))) s

/-! ## Moves (R160) -/

def movyStep (op : MovYOp) (i : Issue) (s : State) : State :=
  match op with
  | .yFromG y g => s.writeShared i 3 (.wy y (s.readG i g)) (·.writeY y (s.readG i g))
  | .cbFromG cb g => s.writeShared i 2 (.wcb cb (s.readG i g)) (·.writeCb cb (s.readG i g))
  | .gFromY g y => s.writeGAfter i 1 g (s.core.readY y)
  | .gFromCb g cb => s.writeGAfter i 1 g (s.core.readCb cb)

def execMovy (hd : Head) (op : MovYOp) (s : State) := runWord 0x28 0 .both hd (fun i s => .ok (movyStep op i s)) s

def movkStep (op : MovKOp) (i : Issue) (s : State) : State :=
  match op with
  | .kFromG k g => s.writeShared i 1 (.wk k (s.readG i g)) (·.writeK k (s.readG i g))
  | .gFromK g k => s.writeGAfter i 1 g (s.core.readK k)

def execMovk (hd : Head) (op : MovKOp) (s : State) := runWord 0x28 1 .both hd (fun i s => .ok (movkStep op i s)) s

/-! ## Predicates (R161) -/

def execPgand (hd : Head) (d a b : BitVec 5) (s : State) :=
  runWord 0x29 0 .both hd (fun i s => .ok (s.writePAfter i 1 d (s.readP i a && s.readP i b))) s

def execPgor (hd : Head) (d a b : BitVec 5) (s : State) :=
  runWord 0x29 1 .both hd (fun i s => .ok (s.writePAfter i 1 d (s.readP i a || s.readP i b))) s

def execPgxor (hd : Head) (d a b : BitVec 5) (s : State) :=
  runWord 0x29 2 .both hd (fun i s => .ok (s.writePAfter i 1 d (s.readP i a != s.readP i b))) s

def execPgnot (hd : Head) (d a : BitVec 5) (s : State) :=
  runWord 0x29 3 .both hd (fun i s => .ok (s.writePAfter i 1 d (!s.readP i a))) s

def execPgmov (hd : Head) (d : BitVec 5) (x : PgSrc) (s : State) :=
  runWord 0x29 4 .both hd (fun i s => .ok (s.writePAfter i 1 d (s.readPg i x))) s

/-! ## System registers (R153, R162) -/

/-- A register that MFS may read outside the shadow context. -/
def SysReg.readable (shadow : Bool) : SysReg → Bool
  | .traprec => shadow
  | _ => true

/-- A register that MTS may write (R153). -/
def SysReg.writable (shadow : Bool) : SysReg → Bool
  | .tol _ => true
  | .fij => true
  | .cir => shadow
  | .mxret => shadow
  | _ => false

def execMfs (hd : Head) (g : BitVec 5) (r : SysReg) (s : State) :=
  runWordIf 0x13 0 .both (fun i _ => SysReg.readable i.shadow r) hd
    (fun i s => .ok (s.writeGAfter i 2 g (s.readSys r))) s

/-- MTS: performs on t + 2; a handler's write performs on the frozen cycle (R146, R353). -/
def execMts (hd : Head) (r : SysReg) (g : BitVec 5) (s : State) :=
  runWordIf 0x14 0 .both (fun i _ => SysReg.writable i.shadow r) hd
    (fun i s => .ok (s.writeShared i 2 (.wsys r (s.readG i g)) (·.writeSys r (s.readG i g)))) s

end Sys2Proof.Machine
end

