-- ==== Sys2Proof/Machine/Spill.lean ====
section
/-! DEFINITION. The spill engine and its tokens (R163 to R168). -/

namespace Sys2Proof.Machine

/-- The code of a token state (R163). -/
def TokState.code : TokState → Nat
  | .free => 0
  | .spilling => 1
  | .held => 2
  | .filling => 3

/-- QWAIT's condition (R166). -/
def Token.idle (q : Token) : Bool := q.state = .free || q.state = .held

/-- SPILL TOKEN (R167). -/
def spillToken (status opc : Nat) (q : BitVec 4) (tok : Token) : Res :=
  .fault 0x72 6
    (BitVec.ofNat 8 status ++ BitVec.ofNat 8 opc ++ 0#6 ++ BitVec.ofNat 2 tok.state.code ++ 0#4 ++ q) 0 0

/-- Units that a word is to write, counted against the rollback area (R372). -/
def State.touching (s : State) (us : List Nat) (k : State → Res) : Res :=
  match s.touch us with
  | none => .hold
  | some s1 => k s1

/-- The rows of an image in local store, one on each cycle from `t0` (R164, R165). -/
def imagePlan (t0 : Nat) (write : Bool) (addr : Nat) : List Planned :=
  (List.range 64).map fun r => ⟨t0 + r, 6, write, addr + 256 * r, 256, 256, false⟩

/-- The place of row `r` of a matrix register in its memory (R151). -/
def mrRow (m r : Nat) : Nat := m * Config.tileBytes + 256 * r

/-- SPILL with its checks passed: the image is captured on t, its rows perform on t + 2 + i and the token becomes HELD
on t + 66 (R164). -/
def spillGo (q : BitVec 4) (addr : BitVec 32) (m : BitVec 3) (i : Issue) (s : State) : State :=
  let img := s.core.readMem .mr cirPS (mrRow m.toNat 0) Config.tileBytes
  let c := { (img.2.writeQ q ⟨.spilling, m, addr⟩) with spillFree := i.t + 66 }
  let rows := (List.range 64).map fun r =>
    (i.t + 2 + r, Act.wr .ls [(addr.toNat + 256 * r, 256)] ((img.1.drop (256 * r)).take 256))
  { s with core := (c.schedAll rows).sched (i.t + 66) (.wtok q ⟨.held, m, addr⟩) }

def execSpill (hd : Head) (q : BitVec 4) (a : BitVec 4) (m : BitVec 3) (s : State) :=
  runWord 0x17 0 .noShadow hd (fun i s =>
    let tok := s.core.readQ q
    if tok.state ≠ .free then spillToken 1 0x17 q tok
    else if i.t < s.core.spillFree then .hold
    else
      (s.lsCheck i 3 (imagePlan (i.t + 2) true (s.readA i a).toNat)).bind fun s =>
        .ok (spillGo q (s.readA i a) m i s)) s

/-- FILL with its checks passed (R165); its last write reseeds the register (R314). -/
def fillGo (q : BitVec 4) (tok : Token) (m : BitVec 3) (keep : Bool) (i : Issue) (s : State) : State :=
  let c := { (s.core.writeQ q { tok with state := .filling }) with spillFree := i.t + 66 }
  let rows := (List.range 64).map fun r =>
    (i.t + 1 + r, Act.move .ls [(tok.addr.toNat + 256 * r, 256)] .mr [(mrRow m.toNat r, 256)] cirPS)
  let c1 := (c.schedAll rows).sched (i.t + 65) (.reseed true m.toNat)
  { s with core := c1.sched (i.t + 66) (.wtok q { tok with state := if keep then .held else .free }) }

/-- The token checks of a FILL (R165). -/
def fillCheck (q : BitVec 4) (s : State) (k : Token → Res) : Res :=
  let tok := s.core.readQ q
  match tok.state with
  | .free => spillToken 3 0x18 q tok
  | .held => k tok
  | _ => spillToken 2 0x18 q tok

def execFill (hd : Head) (q : BitVec 4) (m : BitVec 3) (keep : Bool) (s : State) :=
  runWord 0x18 0 .noShadow hd (fun i s =>
    fillCheck q s fun tok =>
      if i.t < s.core.spillFree then .hold
      else
        (s.lsCheck i 3 (imagePlan (i.t + 1) false tok.addr.toNat)).bind fun s =>
          s.touching (unitsOf .mr (mrRow m.toNat 0) Config.tileBytes) fun s => .ok (fillGo q tok m keep i s)) s

/-- FILL with DROP: the token becomes FREE on t + 1, and the engine is not used (R165). -/
def execFillDrop (hd : Head) (q : BitVec 4) (s : State) :=
  runWord 0x18 0 .noShadow hd (fun i s =>
    fillCheck q s fun tok => .ok (s.after i 1 (.wtok q { tok with state := .free }))) s

/-- QWAIT's test on a cycle. -/
def qwaitStep (q : BitVec 4) (s : State) : Res := if (s.core.readQ q).idle then .ok s else .hold

def execQwait (hd : Head) (q : BitVec 4) (s : State) :=
  runWord 0x19 0 .noShadow hd (fun i s => (qwaitStep q s).orWait i s (.token q)) s

def execQtest (hd : Head) (p : BitVec 5) (q : BitVec 4) (s : State) :=
  runWord 0x1A 0 .noShadow hd (fun i s => .ok (s.writePAfter i 1 p (s.core.readQ q).idle)) s

end Sys2Proof.Machine
end

