-- ==== Sys2Proof/Machine/Lanes.lean ====
section
/-! DEFINITION. The cells of accumulator banks and matrix registers as values, the checksum lanes beside them, reseeds
and checks (R151, R152, R278, R312 to R317). -/

namespace Sys2Proof.Machine

/-! ## Lane values (R312) -/

/-- Rounded to 106 significant bits, to nearest even, within the exponent range of FP64 (R312). -/
def round106 : Val → Val
  | .nan => .nan
  | .inf n => .inf n
  | .fin n m d s =>
      if m = 0 then .zero n
      else
        let q := max (floorLog2 m (d * 2 ^ s) - 105) (-1074)
        let num := if q < 0 then m * 2 ^ q.natAbs else m
        let den := if q < 0 then d * 2 ^ s else d * 2 ^ s * 2 ^ q.toNat
        let k := num / den
        let r := if roundsUp .rne n (k % 2 == 1) (num % den) den then k + 1 else k
        if !(Val.scaled false r q).lt (.fin false (2 ^ 1024) 1 0) then .inf n else .scaled n r q

/-- One step of a lane or of a check: FP64 with nearest even, or 106 bits for an FP64 destination. -/
def laneRound (f64 : Bool) (v : Val) : Val := if f64 then round106 v else roundTo .f64 v .rne

/-- A lane's value: the sum of its two halves. -/
def laneVal (x : Word × Word) : Val :=
  let hi := Fmt.f64.value x.1.toNat
  if hi.isFinite then hi.add false (Fmt.f64.value x.2.toNat) else hi

/-- A lane that holds a value: `hi` rounded to FP64, and for an FP64 destination the exact rest. -/
def laneOf (f64 : Bool) (v : Val) : Word × Word :=
  let h := convertTo .f64 v .rne false
  let hv := Fmt.f64.value h
  if f64 && v.isFinite && hv.isFinite then
    (BitVec.ofNat 64 h, BitVec.ofNat 64 (convertTo .f64 (v.add false hv.negate) .rne false))
  else (BitVec.ofNat 64 h, 0)

/-- Lane `i` of a list of lanes; an empty list stands for zero lanes. -/
def laneAt (ls : List (Word × Word)) (i : Nat) : Val := laneVal (ls.getD i (0, 0))

/-- The sum of values in increasing order, every step rounded (R314, R317). -/
def laneSum (f64 : Bool) (xs : List Val) : Val := xs.foldl (fun a x => laneRound f64 (a.add false x)) (.zero false)

/-! ## Cells (R151, R152, R278, R301) -/

/-- The memory and the byte offset of a destination. -/
def destMem (mr : Bool) : Mem := if mr then .mr else .acc
def destBase (d : Nat) : Nat := d * Config.tileBytes

/-- The bytes of one value of a destination: cell (i, j), or the FP64 pair of logical column j. -/
def cellAddr (mr f64 : Bool) (d i j : Nat) : Nat :=
  if f64 then (if mr then destBase d else destBase (d + j / 32)) + 256 * i + 8 * (j % 32) else destBase d + 256 * i + 4 * j

/-- Values of consecutive bytes in a format. -/
def valuesOf (f : Fmt) : Nat → List Byte → List Val
  | 0, _ => []
  | n + 1, bs => f.value (ofBytes (bs.take f.bytes)) :: valuesOf f n (bs.drop f.bytes)

/-- One row as the values of its logical columns, 64 of them; where an FP64 destination keeps only 32, the others are
zero. -/
def Core.cellRow (c : Core) (mr f64 pair : Bool) (d i : Nat) : List Val × Core :=
  let r := c.readMem (destMem mr) cirPM (destBase d + 256 * i) 256
  if !f64 then (valuesOf .f32 64 r.1, r.2)
  else if pair then
    let r2 := r.2.readMem (destMem mr) cirPM (destBase (d + 1) + 256 * i) 256
    (valuesOf .f64 32 r.1 ++ valuesOf .f64 32 r2.1, r2.2)
  else (valuesOf .f64 32 r.1 ++ List.replicate 32 (.zero false), r.2)

/-- The rows that a test names, read; the others are left out as empty lists. -/
def Core.cellRowsIn (c : Core) (mr f64 pair : Bool) (d : Nat) (need : Nat → Bool) : List (List Val) × Core :=
  (List.range 64).foldl (fun x i =>
    if need i then let r := x.2.cellRow mr f64 pair d i; (x.1 ++ [r.1], r.2) else (x.1 ++ [[]], x.2)) ([], c)

/-- All 64 rows. -/
def Core.cellRows (c : Core) (mr f64 pair : Bool) (d : Nat) : List (List Val) × Core :=
  c.cellRowsIn mr f64 pair d fun _ => true

/-- Column `j` of a list of rows. -/
def column (rows : List (List Val)) (j : Nat) : List Val := rows.map fun r => r.getD j (.zero false)

/-! ## Pairs and reseeds (R312, R314) -/

/-- The first bank of the pair that a bank belongs to. -/
def Core.pairOf (c : Core) (b : Nat) : Option Nat :=
  if (c.lanesOf false b).paired then some b
  else if 0 < b && (c.lanesOf false (b - 1)).paired then some (b - 1) else none

/-- MXRET records this destination. -/
def Core.retNames (c : Core) (mr : Bool) (d : Nat) : Bool := bitAt c.mxret 62 == mr && fieldN c.mxret 56 6 == d

/-- MXRET.V becomes 0. -/
def Core.clearRet (c : Core) : Core := { c with mxret := c.mxret &&& ~~~(BitVec.twoPow 64 63) }

/-- The lanes of rows and columns that a reseed sets. -/
def seededLanes (l : Lanes) (rows : List (List Val)) : Lanes :=
  let sum := fun xs => laneOf l.f64 (laneSum l.f64 xs)
  { l with rl := rows.map sum, rm := rows.map fun r => sum (r.map Val.magnitude)
           cl := (List.range 64).map fun j => sum (column rows j)
           cm := (List.range 64).map fun j => sum ((column rows j).map Val.magnitude)
           uc := 0, tol := 1 }

/-- A reseed of one destination in its own format (R314). -/
def Core.reseedAt (c : Core) (mr : Bool) (d : Nat) : Core :=
  let l := c.lanesOf mr d
  let r := c.cellRows mr l.f64 (l.paired && !mr) d
  let c1 := r.2.setLanes mr d (seededLanes l r.1)
  if c1.retNames mr d then c1.clearRet else c1

/-- A reseed; either bank of a pair reseeds the pair (R314). -/
def Core.reseed (c : Core) (mr : Bool) (d : Nat) : Core :=
  if mr then c.reseedAt true d else c.reseedAt false ((c.pairOf d).getD d)

/-- A destination takes a format on its own and is reseeded. -/
def Core.single (c : Core) (mr : Bool) (d : Nat) (f64 : Bool) : Core :=
  (c.setLanes mr d { c.lanesOf mr d with f64 := f64, paired := false }).reseedAt mr d

/-- A bank leaves its pair; both banks take FP32 format on their own (R312). -/
def Core.unpair (c : Core) (b : Nat) : Core :=
  match c.pairOf b with
  | none => c
  | some f => (c.single false f false).single false (f + 1) false

/-- Before a product updates the lanes, the destination has the product's format and pairing (R312). -/
def Core.prepareLanes (c : Core) (mr : Bool) (d : Nat) (f64 pair : Bool) : Core :=
  let l := c.lanesOf mr d
  if mr then (if l.f64 = f64 then c else c.single true d f64)
  else if pair then
    if l.paired then c
    else
      let c1 := (c.unpair d).unpair (d + 1)
      (c1.setLanes false d { c1.lanesOf false d with f64 := true, paired := true }).reseedAt false d
  else
    let c1 := c.unpair d
    if (c1.lanesOf false d).f64 = f64 then c1 else c1.single false d f64

/-! ## Allocation (R283) -/

/-- ACALLOC and ACFREE perform on one bank. A freed bank that was in FP64 format or in a pair takes FP32 format. -/
def Core.allocBank (c : Core) (b : Nat) (on zero : Bool) : Core :=
  let c1 := { c with allocated := c.allocated.setIfInBounds b on }
  if on && zero then
    (((c1.writeMem .acc (destBase b) (List.replicate Config.tileBytes 0)).unpair b).single false b false)
  else if !on && (c1.lanesOf false b).f64 then (c1.unpair b).single false b false
  else if !on then c1.unpair b
  else c1

def Core.allocBanks (c : Core) (first count : Nat) (on zero : Bool) : Core :=
  (List.range count).foldl (fun c i => c.allocBank (first + i) on zero) c

/-! ## Checks (R315, R317) -/

/-- A check's answer: the mismatching rows and columns, and how many lines it skipped. -/
structure CheckRes where
  rows : List Nat
  cols : List Nat
  skipped : Nat
  deriving DecidableEq, Repr

/-- One line: mismatch, match, or skipped. -/
inductive Line where
  | bad
  | good
  | skip
  deriving DecidableEq, Repr

/-- A line against its lanes (R317). `tol` is a TOL register. -/
def checkLine (f64 : Bool) (tol : Word) (vals : List Val) (lane mag : Val) : Line :=
  if !lane.isFinite || !mag.isFinite || vals.any (!·.isFinite) then .skip
  else
    let abs := Fmt.f32.value (fieldN tol 32 31)
    let rel := Fmt.f32.value (fieldN tol 0 31)
    let d := laneRound f64 ((laneSum f64 vals).add false lane.negate).magnitude
    let t := laneRound f64 (abs.add false (rel.mul mag))
    if abs.isNaN || rel.isNaN then .good else if t.lt d then .bad else .good

/-- Row `i` of a destination is poisoned with its lanes: a row of an accumulator bank, and no row of a matrix register (R367). -/
def Core.lanesBad (c : Core) (mr : Bool) (d i : Nat) : Bool :=
  !mr && c.poison.contains ((destMem mr).unitAt (destBase d + 256 * i))

/-- The lane of a row: zero where it is poisoned with its row (R367). -/
def Core.rowLane (c : Core) (mr : Bool) (d i : Nat) (ls : List (Word × Word)) : Val :=
  if c.lanesBad mr d i then .zero false else laneAt ls i

/-- The lanes of a destination as an engine reads them: those that are poisoned with their row are zero (R367). -/
def Core.lanesRead (c : Core) (mr : Bool) (d : Nat) : Lanes :=
  let l := c.lanesOf mr d
  let bad := fun i => c.lanesBad mr d i
  let zeroed := fun (ls : List (Word × Word)) => (List.range 64).map fun i => if bad i then (0, 0) else ls.getD i (0, 0)
  if (List.range 64).any bad then { l with rl := zeroed l.rl, rm := zeroed l.rm } else l

/-- The check of some rows and columns of a destination, or of the pair it belongs to (R312, R317); rows that no line of
the check needs are not read. -/
def Core.checkDest (c : Core) (mr : Bool) (named : Nat) (rows cols : List Nat) : CheckRes × Core :=
  let d := if mr then named else (c.pairOf named).getD named
  let l := c.lanesOf mr d
  let g := c.cellRowsIn mr l.f64 (l.paired && !mr) d fun i => cols ≠ [] || rows.contains i
  let tol := c.tol[l.tol.toNat]'(by omega)
  let row := fun i => checkLine l.f64 tol (g.1.getD i []) (c.rowLane mr d i l.rl) (c.rowLane mr d i l.rm)
  let col := fun j => checkLine l.f64 tol (column g.1 j) (laneAt l.cl j) (laneAt l.cm j)
  (⟨rows.filter (row · = .bad), cols.filter (col · = .bad),
    (rows.filter (row · = .skip)).length + (cols.filter (col · = .skip)).length⟩, g.2)

def allLines : List Nat := List.range 64

/-- UC of a destination or its pair becomes 0 (R317). -/
def Core.cleanUC (c : Core) (mr : Bool) (named : Nat) : Core :=
  let d := if mr then named else (c.pairOf named).getD named
  c.setLanes mr d { c.lanesOf mr d with uc := 0 }

/-- A mask of line numbers. -/
def maskOf (ls : List Nat) : Word := ls.foldl (fun m i => m ||| BitVec.twoPow 64 i) 0

end Sys2Proof.Machine
end

