-- ==== Sys2Proof/Machine/Acc.lean ====
section
/-! DEFINITION. The accumulator and scale words (R278 to R286) and FTSET (R287 to R289). -/

namespace Sys2Proof.Machine

/-! ## Accesses that are still to be made -/

/-- Some byte of the pieces lies in the tile with index `d`. -/
def inTile (d : Nat) (ps : List (Nat × Nat)) : Bool :=
  ps.any fun p => meets p.1 p.2 (destBase d) Config.tileBytes

/-- A product's destination includes the bank or register. -/
def Prod.targets (p : Prod) (mr : Bool) (d : Nat) : Bool :=
  p.mr == mr && (p.dest == d || (p.pair && p.dest + 1 == d))

/-- An act of a product or of a retry that writes a destination. -/
def Act.product (mr : Bool) (d : Nat) : Act → Bool
  | .pcomp p => p.targets mr d
  | .pdone p _ _ => p.targets mr d
  | .restore r _ => r.prod.targets mr d
  | .rcomp r => r.prod.targets mr d
  | .rdone r _ => r.prod.targets mr d
  | _ => false

/-- An act of another word that writes a destination. -/
def Act.plainWrite (mr : Bool) (d : Nat) : Act → Bool
  | .wr m ps _ => m = destMem mr && inTile d ps
  | .move _ _ m ps _ => m = destMem mr && inTile d ps
  | .fix m e _ _ a _ _ _ => m == mr && (e == d || inTile d [(a, 1)])
  | .alloc f n _ z => !mr && z && f ≤ d && d < f + n
  | _ => false

/-- An act that reads a bank or register for a move. -/
def Act.moveRead (mr : Bool) (d : Nat) : Act → Bool
  | .move m ps _ _ _ => m = destMem mr && inTile d ps
  | _ => false

/-- Some act still to be made satisfies a test; reads of the current cycle count until it ends (R279). -/
def Core.anyAct (c : Core) (p : Act → Bool) : Bool := c.timeline.any (p ·.act) || c.made.any (p ·.act)

/-- An access to a bank is still to be made (R279, R283). -/
def Core.bankBusy (c : Core) (b : Nat) : Bool :=
  c.anyAct fun a => a.product false b || a.plainWrite false b || a.moveRead false b

/-! ## Checks (R280, R281) -/

/-- ACC UNALLOCATED (R280). -/
def accUnallocated (opc b : Nat) : Res := .fault 0x20 5 (statusOpc 1 opc b) 0 0

/-- The words that name banks go on only when all are allocated. -/
def State.needBanks (s : State) (i : Issue) (bs : List Nat) (k : Res) : Res :=
  match bs.find? fun b => !s.core.bankAllocated b with
  | some b => accUnallocated i.opc b
  | none => k

/-- The owner of a band (R284). -/
def bandOwner (o : BitVec 8) (band : Nat) : BitVec 2 := field o (2 * band) 2

/-- The ACC BAND status word (R281). -/
def bandStatus (opc : Nat) (owner grp : BitVec 2) (band b : Nat) : BitVec 32 :=
  1#8 ++ BitVec.ofNat 8 opc ++ owner ++ grp ++ 0#2 ++ BitVec.ofNat 2 band ++ 0#2 ++ BitVec.ofNat 6 b

/-- The band check of a drain (R281). -/
def State.needBands (s : State) (i : Issue) (b first m : Nat) (grp : BitVec 2) (k : Res) : Res :=
  let o := s.core.bankOwner b
  match (List.range 4).find? fun q => first / 16 ≤ q && q ≤ (first + m - 1) / 16 && bandOwner o q ≠ grp with
  | some q => .fault 0x21 5 (bandStatus i.opc (bandOwner o q) grp q b) 0 0
  | none => k

/-! ## Words -/

/-- M and N of a code (R282). -/
def dim (code : BitVec 3) : Nat := 8 * (code.toNat + 1)

/-- Rows of `n` cells in local store, one on each cycle from `t0` (R285). -/
def rowPlan (t0 m n : Nat) (write : Bool) (addr align : Nat) : List Planned :=
  (List.range m).map fun r => ⟨t0 + r, 5, write, addr + n * r, n, align, false⟩

/-- Row `r` of the range of an accumulator word. -/
def accRow (b first r : Nat) : Nat := destBase b + 256 * (first + r)

def execAcalloc (hd : Head) (acc : BitVec 6) (zero : Bool) (count1 : BitVec 6) (s : State) :=
  runWord 0x50 0 .noShadow hd (fun i s =>
    s.touching (if zero then unitsOf .acc (destBase acc.toNat) (Config.tileBytes * (count1.toNat + 1)) else [])
      fun s => .ok (s.after i 1 (.alloc acc.toNat (count1.toNat + 1) true zero))) s

def execAcfree (hd : Head) (acc : BitVec 6) (count1 : BitVec 6) (s : State) :=
  runWord 0x51 0 .noShadow hd (fun i s =>
    if (List.range (count1.toNat + 1)).any fun n => s.core.bankBusy (acc.toNat + n) then .hold
    else .ok (s.after i 1 (.alloc acc.toNat (count1.toNat + 1) false false))) s

def execAcband (hd : Head) (acc : BitVec 6) (owners : BitVec 8) (s : State) :=
  runWord 0x52 0 .noShadow hd (fun i s =>
    s.needBanks i [acc.toNat] (.ok (s.after i 1 (.owners acc.toNat owners)))) s

/-- The moves of a drain: row r read on t + 1 + r and written on t + 2 + r (R285, R320). -/
def drainGo (b first m n addr : Nat) (i : Issue) (s : State) : State :=
  { s with core := s.core.schedAll ((List.range m).map fun r =>
      (i.t + 1 + r, Act.move .acc [(accRow b first r, 4 * n)] .ls [(addr + 4 * n * r, 4 * n)] cirPA)) }

/-- ACRD. R285 gives R279's hold no place in the order of the checks: it comes after ACC BAND and before LOCAL BOUNDS, and in the same place
for ACWR (DEDUCED, unsafe, log entry 57). -/
def execAcrd (hd : Head) (acc : BitVec 6) (a : BitVec 4) (mcode ncode : BitVec 3) (first : BitVec 6) (grp : BitVec 2)
    (s : State) :=
  runWord 0x53 0 .noShadow hd (fun i s =>
    s.needBanks i [acc.toNat] (s.needBands i acc.toNat first.toNat (dim mcode) grp (
      if s.core.bankBusy acc.toNat then .hold
      else
        let addr := (s.readA i a).toNat
        (s.lsCheck i 2 (rowPlan (i.t + 2) (dim mcode) (4 * dim ncode) true addr 4)).bind fun s =>
          .ok (drainGo acc.toNat first.toNat (dim mcode) (dim ncode) addr i s)))) s

def execAcwr (hd : Head) (acc : BitVec 6) (a : BitVec 4) (mcode ncode : BitVec 3) (first : BitVec 6) (s : State) :=
  runWord 0x54 0 .noShadow hd (fun i s =>
    s.needBanks i [acc.toNat] (
      if s.core.bankBusy acc.toNat then .hold
      else
        let addr := (s.readA i a).toNat
        (s.lsCheck i 2 (rowPlan (i.t + 1) (dim mcode) (4 * dim ncode) false addr 4)).bind fun s =>
          s.touching (unitsOf .acc (accRow acc.toNat first.toNat 0) (256 * dim mcode)) fun s =>
            let rows := (List.range (dim mcode)).map fun r =>
              (i.t + 1 + r, Act.move .ls [(addr + 4 * dim ncode * r, 4 * dim ncode)] .acc
                [(accRow acc.toNat first.toNat r, 4 * dim ncode)] cirPM)
            .ok { s with core := (s.core.schedAll rows).sched (i.t + 1 + dim mcode) (.reseed false acc.toNat) })) s

def execAczero (hd : Head) (acc : BitVec 6) (mcode ncode : BitVec 3) (first : BitVec 6) (s : State) :=
  runWord 0x55 0 .noShadow hd (fun i s =>
    s.needBanks i [acc.toNat] (
      if s.core.bankBusy acc.toNat then .hold
      else
        s.touching (unitsOf .acc (accRow acc.toNat first.toNat 0) (256 * dim mcode)) fun s =>
          let rows := (List.range (dim mcode)).map fun r => (accRow acc.toNat first.toNat r, 4 * dim ncode)
          .ok ((s.after i 1 (.wr .acc rows (List.replicate (4 * dim ncode * dim mcode) 0))).after i 1
            (.reseed false acc.toNat)))) s

def execScld (hd : Head) (a : BitVec 4) (kcode : BitVec 6) (off : BitVec 8) (s : State) :=
  runWord 0x56 0 .noShadow hd (fun i s =>
    let addr := (s.readA i a).toNat
    let n := kcode.toNat + 1
    (s.lsCheck i 2 (rowPlan (i.t + 1) n 256 false addr 1)).bind fun s =>
      s.touching (unitsOf .scale (256 * off.toNat) (256 * n)) fun s =>
        .ok { s with core := s.core.schedAll ((List.range n).map fun r =>
          (i.t + 1 + r, Act.move .ls [(addr + 256 * r, 256)] .scale [(256 * off.toNat + 256 * r, 256)] cirPM)) }) s

/-! ## The format table (R287 to R289) -/

/-- FORMAT TABLE with a reason and the entry index (R289). -/
def formatTable (reason opc ix : Nat) : Res := .fault 0x25 5 (statusOpc reason opc ix) 0 0

/-- An operand format that an entry may hold. -/
def entryFmtOk (n : Nat) : Bool := n ≤ 6 || n = 14

/-- A value that FTSET accepts (R288). -/
def entryOk (v : Word) : Bool :=
  fieldN v 32 32 = 0 && !bitAt v 1 && (!bitAt v 0 || (entryFmtOk (fieldN v 28 4) && entryFmtOk (fieldN v 24 4)))

/-- The value that an entry stores: one that is not valid is stored as 0. -/
def entryStored (v : Word) : Word := if bitAt v 0 then v else 0

def execFtset (hd : Head) (n : BitVec 4) (g : BitVec 5) (s : State) :=
  runWord 0x85 0 .noShadow hd (fun i s =>
    let v := s.readG i g
    if entryOk v then .ok (s.after i 2 (.ftab n (entryStored v))) else formatTable 2 0x85 n.toNat) s

end Sys2Proof.Machine
end

