-- ==== Sys2Proof/Machine/Codebook.lean ====
section
/-! DEFINITION. Codebook banks, selectors and the codebook words (R290 to R297). -/

namespace Sys2Proof.Machine

/-! ## Banks and selectors (R149, R290, R291) -/

def Core.bank (c : Core) (b : BitVec 2) : CbBank := c.banks[b.toNat]'(by omega)
def Core.setBank (c : Core) (b : BitVec 2) (v : CbBank) : Core := { c with banks := c.banks.set b.toNat v (by omega) }

/-- The bank is LOADING for a word that issues on this cycle (R292, R294). -/
def Core.loadingNow (c : Core) (b : BitVec 2) : Bool :=
  (c.bank b).loading || c.made.any fun e => match e.act with | .cbend n _ _ src => n == b.toNat && src ≠ .none | _ => false

/-- The place of slot `e` of a bank in codebook memory. -/
def slotAt (b : BitVec 2) (e : Nat) : Nat := b.toNat * 32768 + 128 * e

/-- A selector's fields (R149). -/
def selBank (v : Word) : BitVec 2 := field v 0 2
def selIxw (v : Word) : Nat := 2 * (fieldN v 8 2 + 1)
def selElems (v : Word) : Nat := fieldN v 13 7 + 1
def selEf (v : Word) : Nat := fieldN v 20 4

/-- The checks of a selector against its bank (R291). -/
def Core.selectorOk (c : Core) (v : Word) : Bool :=
  selEf v ≤ 13 && (c.bank (selBank v)).count ≠ 0 && selElems v * efSize (selEf v) == (c.bank (selBank v)).ebytes

/-- The CODEBOOK INDEX status word of reason 2, with the bank where R200 and R303 have it. -/
def cbIndexStatus (opc : Nat) (b : BitVec 2) : BitVec 32 := 2#8 ++ BitVec.ofNat 8 opc ++ 0#2 ++ b ++ 0#12

/-- An act that reads the bank to expand indices (R292). -/
def Act.expands (b : BitVec 2) : Act → Bool
  | .vec j _ _ => j.op = .cbx && j.bank == b.toNat
  | .prow p isB _ => let src := if isB then p.b else p.a; src.index && p.bank == b.toNat
  | _ => false

/-- An act that reads the bank at all (R295). -/
def Act.readsBank (b : BitVec 2) : Act → Bool
  | .cbcmp _ n _ _ _ => n == b.toNat
  | .move .cb ps _ _ _ => ps.any fun p => p.1 / 32768 == b.toNat
  | a => a.expands b

/-! ## The words (R292 to R296) -/

/-- CODEBOOK BUSY and LOADING before a load (R292). -/
def State.loadable (s : State) (i : Issue) (b : BitVec 2) (k : Res) : Res :=
  if s.core.anyAct (Act.expands b) then .fault 0x23 12 (statusOpc 1 i.opc b.toNat) 0 0
  else if s.core.loadingNow b then .hold else k

/-- Entries in local store, one on each cycle from `t0`. -/
def entryPlan (t0 count eb : Nat) (write : Bool) (addr : Nat) : List Planned :=
  (List.range count).map fun e => ⟨t0 + e, 5, write, addr + eb * e, eb, 1, false⟩

/-- A load from local store (R294): the bank is LOADING on t, entry e performs on t + 2 + e, the load ends on
t + 1 + COUNT. -/
def loadGo (b : BitVec 2) (addr count eb : Nat) (i : Issue) (s : State) : State :=
  let c := s.core.setBank b { s.core.bank b with loading := true }
  let es := (List.range count).map fun e =>
    (i.t + 1 + e, Act.move .ls [(addr + eb * e, eb)] .cb [(slotAt b e, 128)] cirPM)
  { s with core := (c.schedAll es).sched (i.t + 1 + count) (.cbend b.toNat count eb (.ls addr)) }

/-- A load from local store with its checks (R292, R293). -/
def loadWord (b : BitVec 2) (addr count eb : Nat) (i : Issue) (s : State) : Res :=
  s.loadable i b ((s.lsCheck i 2 (entryPlan (i.t + 1) count eb false addr)).bind fun s =>
    s.touching (unitsOf .cb (slotAt b 0) (128 * count)) fun s => .ok (loadGo b addr count eb i s))

def execCbld (hd : Head) (b : BitVec 2) (a : BitVec 4) (count1 : BitVec 8) (ebytes1 : BitVec 7) (s : State) :=
  runWord 0x80 0 .noShadow hd (fun i s =>
    loadWord b (s.readA i a).toNat (count1.toNat + 1) (ebytes1.toNat + 1) i s) s

/-- CBWAIT's test (R295). -/
def cbwaitStep (b : BitVec 2) (s : State) : Res :=
  if s.core.timeline.any fun e => e.act.readsBank b then .hold else .ok s

def execCbwait (hd : Head) (b : BitVec 2) (s : State) :=
  runWord 0x81 0 .noShadow hd (fun i s => (cbwaitStep b s).orWait i s (.cbwait b)) s

/-- CBSAVE. It is held while the bank is LOADING before its accesses are checked, as CBLD, CBREST and CBCHK are (R292, R296; DEDUCED,
unsafe, log entry 57). -/
def execCbsave (hd : Head) (b : BitVec 2) (a : BitVec 4) (s : State) :=
  runWord 0x82 0 .noShadow hd (fun i s =>
    let addr := (s.readA i a).toNat
    let k := s.core.bank b
    if s.core.loadingNow b then .hold
    else
      (s.lsCheck i 2 (entryPlan (i.t + 2) k.count k.ebytes true addr)).bind fun s =>
        let es := (List.range k.count).map fun e =>
          (i.t + 1 + e, Act.move .cb [(slotAt b e, k.ebytes)] .ls [(addr + k.ebytes * e, k.ebytes)] cirPC)
        .ok { s with core := (s.core.schedAll es).sched (i.t + 1 + k.count) (.cbsrc b.toNat (.ls addr)) }) s

/-- The bytes that a bank takes from a CONFIG section of a plane: what follows word 0 of it (R298). Where the plane has no such section,
or it holds fewer bytes after word 0, as one with another record may, the bytes that it lacks are free values (R296, R297; DESIGN
CHOICE, log entry 91). -/
def preloadBytes (plane : List Byte) (sec n : Nat) : List Byte :=
  let held := match (sections plane).find? fun x => x.2.kind = 5 && x.2.secno.toNat = sec with
    | some (off, h) => (plane.drop (off + 20)).take (min n (12 * (h.len - 1)))
    | none => []
  held ++ (List.range (n - held.length)).map fun x => Config.absentPreload plane sec (held.length + x)

/-- A load from a plane (R296), with the timing of CBLD. -/
def planeGo (b : BitVec 2) (sec : Nat) (i : Issue) (s : State) : State :=
  let k := s.core.bank b
  let bs := preloadBytes s.activePlane sec (k.count * k.ebytes)
  let c := s.core.setBank b { k with loading := true }
  let es := (List.range k.count).map fun e =>
    let v := (bs.drop (k.ebytes * e)).take k.ebytes
    (i.t + 2 + e, Act.wr .cb [(slotAt b e, 128)] (v ++ List.replicate (128 - v.length) 0))
  { s with core := (c.schedAll es).sched (i.t + 1 + k.count) (.cbend b.toNat k.count k.ebytes (.plane sec)) }

def execCbrest (hd : Head) (b : BitVec 2) (s : State) :=
  runWord 0x83 0 .noShadow hd (fun i s =>
    let k := s.core.bank b
    match k.source with
    | .none => s.loadable i b (.ok (s.after i 1 (.cbend b.toNat 0 k.ebytes .none)))
    | .plane sec =>
        s.loadable i b (s.touching (unitsOf .cb (slotAt b 0) (128 * k.count)) fun s => .ok (planeGo b sec i s))
    | .ls addr => loadWord b addr k.count k.ebytes i s) s

def execCbchk (hd : Head) (p : BitVec 5) (b : BitVec 2) (s : State) :=
  runWord 0x84 0 .noShadow hd (fun i s =>
    let k := s.core.bank b
    if s.core.loadingNow b then .hold
    else
      match k.source with
      | .ls addr =>
          (s.lsCheck i 2 (entryPlan (i.t + 1) k.count k.ebytes false addr)).bind fun s =>
            let es := (List.range k.count).map fun e =>
              (i.t + 1 + e, Act.cbcmp s.core.seq b.toNat e k.ebytes (addr + k.ebytes * e))
            .ok { s with core := (s.core.schedAll es).sched (i.t + 1 + k.count) (.cbans s.core.seq p) }
      | _ => .ok (s.writePAfter i (2 + k.count) p true)) s

end Sys2Proof.Machine
end

