-- ==== Sys2Proof/Machine/Vector.lean ====
section
/-! DEFINITION. The vector engine: schedules (R186), the vector words (R187 to R200) and the vector conversions (R94,
R100 to R105). A word issues by `vecWord`; its reads are the acts `vec`, performed by `Core.vecAct`, and an output phase
is the act `vout`, performed by `Core.voutAct`. -/

namespace Sys2Proof.Machine

/-! ## Shape of a word -/

/-- The opcode of a vector word (R65, R100). -/
def VFn.opc : VFn → Nat
  | .add | .sub | .mul | .fma | .max | .min | .abs | .neg | .clamp => 0x60
  | .rcp | .rsqrt | .sqrt | .exp2 | .log2 | .tanh => 0x61
  | .rsum | .rmax | .rmin | .scan => 0x62
  | .cmp | .sel | .compact | .iota | .topk => 0x63
  | .gather | .bcast | .mov => 0x64
  | .and | .or | .xor | .shl | .shr => 0x65
  | .rand => 0x66
  | .cbx => 0x67
  | .cvt => 0xD1
  | .quant => 0xD2
  | .deq => 0xD3
  | .bscl => 0xD4
  | .pack => 0xD5
  | .unpack => 0xD6

/-- The latency L (R186). -/
def VFn.latency : VFn → Nat
  | .mul | .fma | .rsum | .scan | .rand | .cbx | .cvt | .quant | .deq | .bscl | .pack | .unpack => 4
  | .rcp | .rsqrt | .sqrt | .exp2 | .log2 | .tanh => 8
  | _ => 2

/-- The words of the output-phase pattern (R186). -/
def VFn.output : VFn → Bool
  | .rsum | .rmax | .rmin | .compact | .topk | .gather => true
  | _ => false

/-- The words without an A stream that marches (R188). -/
def VFn.readsA : VFn → Bool
  | .iota | .bcast | .rand | .gather => false
  | _ => true

/-- The words whose B stream is read part by part. -/
def VFn.readsB : VFn → Bool
  | .add | .sub | .mul | .fma | .max | .min | .cmp | .sel | .compact | .gather | .and | .or | .xor | .shl | .shr => true
  | _ => false

/-- The words that read the old D (R188). -/
def VFn.readsD : VFn → Bool
  | .fma | .sel => true
  | _ => false

/-- The words whose B stream is a scale stream (R102, R103). -/
def VFn.scaled : VFn → Bool
  | .quant | .deq => true
  | _ => false

def VJob.fmt (j : VJob) : Fmt := (Fmt.ofCode j.ef).getD .n8
def VJob.ofmt (j : VJob) : Fmt := (Fmt.ofCode (j.mod / 16 % 16)).getD .n8
def VJob.mode (j : VJob) : Mode := Mode.ofCode (j.mod / 2 % 8)
def VJob.sat (j : VJob) : Bool := j.mod % 2 = 1

/-- Bytes of one source element; an index stream of VPACK and VUNPACK is counted on its n8 side. -/
def VJob.size (j : VJob) : Nat := if j.op = .cbx then 1 else efSize j.ef

/-- Elements in one part, and in one segment. -/
def VJob.np (j : VJob) : Nat := 16 / j.size
def VJob.ns (j : VJob) : Nat := 256 / j.size

/-- Blocks of 32 elements in one segment. -/
def VJob.blocks (j : VJob) : Nat := j.ns / 32

/-- The format written. -/
def VJob.dfmt (j : VJob) : Fmt :=
  match j.op with
  | .rsum | .rmax | .rmin | .scan | .cvt | .quant | .deq => j.ofmt
  | _ => j.fmt

/-- Bytes of one scale that VBSCL writes (R104). -/
def VJob.scaleBytes (j : VJob) : Nat := if j.mod / 8 % 2 = 1 then 1 else 4

/-! ## Addresses of the parts (R100, R186, R200) -/

/-- First and last index of part `p` of segment `i` of VCBX (R200). -/
def VJob.cbxSpan (j : VJob) (i p : Nat) : Nat × Nat :=
  (i * (256 / j.ebytes) + 16 * p / j.ebytes, i * (256 / j.ebytes) + (16 * p + 15) / j.ebytes)

/-- Byte range of the indices from `a` to `b` in a string of `w`-bit indices (R90). -/
def indexRange (w a b : Nat) : Nat × Nat := (w * a / 8, (w * (b + 1) + 7) / 8 - w * a / 8)

/-- Part `p` of the source stream. VUNPACK's parts are counted on the n8 side, 16 indices a part, since 16 bytes of its source hold no
whole number of indices (R100, R186; DEDUCED, unsafe, log entry 80). -/
def VJob.aPart (j : VJob) (i p : Nat) : Int × Nat :=
  match j.op with
  | .cbx => let r := indexRange j.ixw (j.cbxSpan i p).1 (j.cbxSpan i p).2; (j.aa + r.1, r.2)
  | .unpack => (j.aa + i * j.as + p * (2 * j.ixw), 2 * j.ixw)
  | _ => (j.aa + i * j.as + 16 * p, 16)

def VJob.bPart (j : VJob) (i p : Nat) : Int × Nat := (j.ba + i * j.bs + 16 * p, 16)

/-- The scale stream of VQUANT and VDEQ, and lo and hi of VCLAMP: all read with part 0. -/
def VJob.sidePart (j : VJob) (i : Nat) : Int × Nat :=
  match j.op with
  | .quant | .deq => (j.ba + i * j.bs, 4 * j.blocks)
  | .clamp => if i = 0 then (j.ba, 2 * j.size) else (j.ba, 0)
  | _ => (0, 0)

def VJob.dPart (j : VJob) (i p : Nat) : Int × Nat :=
  match j.op with
  | .bscl => if p = 15 then (j.da + i * j.ds, j.scaleBytes * j.blocks) else (j.da, 0)
  | .pack => (j.da + i * j.ds + p * (2 * j.ixw), 2 * j.ixw)
  | .cbx => (j.da + i * j.ds + 16 * p, 16)
  | _ => (j.da + i * j.ds + p * (j.np * j.dfmt.bytes), j.np * j.dfmt.bytes)

/-- Whether a word writes part by part. -/
def VJob.marches (j : VJob) : Bool := !j.op.output

/-! ## The output phase (R186, R192, R194, R196, R197) -/

/-- K of VTOPK. -/
def VJob.topK (j : VJob) : Nat := j.mod + 1

/-- The output footprint: ranges with the element size that their alignment asks for. -/
def VJob.footprint (j : VJob) : List (Nat × Nat × Nat) :=
  match j.op with
  | .compact => [(j.da, 256 * j.cnt, j.size)]
  | .topk => [(j.da, j.topK * j.size, j.size), (j.ba, 4 * j.topK, 4)]
  | .gather => [(j.da, 64 * j.cnt * j.size, j.size)]
  | _ => [(j.da, j.dfmt.bytes, j.dfmt.bytes)]

/-- A byte range cut into its chunks. -/
def chunkCut (a n : Nat) : List (Nat × Nat) :=
  if n = 0 then []
  else (List.range ((a + n - 1) / 16 - a / 16 + 1)).map fun m =>
    let lo := max a (16 * (a / 16 + m))
    (lo, min (a + n) (16 * (a / 16 + m + 1)) - lo)

/-- The chunks of the footprint in the order in which they are written: VTOPK's values before its indices, wherever they lie, and a
chunk that both ranges share twice (R186, R196; DEDUCED, unsafe, log entry 71). -/
def VJob.outChunks (j : VJob) : List (Nat × Nat × Nat) :=
  j.footprint.flatMap fun f => (chunkCut f.1 f.2.1).map fun c => (c.1, c.2, f.2.2)

/-- G (R186). -/
def VJob.gatherCycles (j : VJob) : Nat := if j.op = .gather then 4 * j.cnt else 0

/-- The cycle on which the output phase takes the buffered elements. -/
def VJob.outStart (j : VJob) : Nat := j.t + j.cnt + 16 + j.gatherCycles

/-- The first cycle on which another vector word may issue (R186). -/
def VJob.next (j : VJob) : Nat :=
  if j.op = .scan then j.t + 16 * j.cnt
  else if j.op.output then j.outStart + j.op.latency + j.outChunks.length
  else j.t + j.cnt

/-- The cycle on which part `p` of segment `i` is read (R186). -/
def VJob.readAt (j : VJob) (i p : Nat) : Nat := if j.op = .scan then j.t + 1 + 16 * i + p else j.t + 1 + i + p

/-- Table bytes of VGATHER (R197). -/
def VJob.tableBytes (j : VJob) : Nat := 2 ^ (j.mod % 32) * j.size

/-! ## The schedule (R171, R172, R186) -/

/-- `alignA` and `alignD` are the element sizes of the A and D streams. -/
def VJob.partPlan (j : VJob) (alignA alignD : Nat) (i p : Nat) : List Planned :=
  let r := j.readAt i p
  let w := r + j.op.latency
  let side := j.sidePart i
  (if j.op.readsA then [⟨r, 1, false, (j.aPart i p).1, (j.aPart i p).2, alignA, false⟩] else []) ++
  (if j.op.readsB then [⟨r, 2, false, (j.bPart i p).1, 16, (if j.op = .gather then 4 else j.size), false⟩] else []) ++
  (if p = 0 && 0 < side.2 then [⟨r, 2, false, side.1, side.2, (if j.op = .clamp then j.size else 4), false⟩] else []) ++
  (if j.op.readsD then [⟨r, 3, false, (j.dPart i p).1, (j.dPart i p).2, alignD, false⟩] else []) ++
  (if j.marches && 0 < (j.dPart i p).2 then [⟨w, 3, true, (j.dPart i p).1, (j.dPart i p).2, alignD, false⟩] else [])

def VJob.plan (j : VJob) (alignA alignD : Nat) : List Planned :=
  let parts := (List.range j.cnt).flatMap fun i => (List.range 16).flatMap fun p => j.partPlan alignA alignD i p
  let gathers := (List.range j.gatherCycles).map fun g =>
    (⟨j.t + j.cnt + 16 + g, 4, false, j.aa, j.tableBytes, j.size, true⟩ : Planned)
  let outs := if j.op.output then
      j.outChunks.mapIdx fun m c => (⟨j.outStart + j.op.latency + m, 3, true, c.1, c.2.1, c.2.2, false⟩ : Planned)
    else []
  parts ++ gathers ++ outs

/-! ## Buffered bytes -/

/-- The key of A part `p` of segment `i`, and of the B stream beside it. -/
def keyA (i p : Nat) : Nat := 2 * (16 * i + p)
def keyB (i p : Nat) : Nat := 2 * (16 * i + p) + 1

def Core.buf (c : Core) (id key : Nat) : List Byte :=
  match c.bufs.find? fun b => b.1 = id && b.2.1 = key with
  | some b => b.2.2
  | none => []

def Core.setBuf (c : Core) (id key : Nat) (bs : List Byte) : Core := { c with bufs := (id, key, bs) :: c.bufs }

/-- Bytes as elements of `w` bytes. -/
def elems (w : Nat) : Nat → List Byte → List Nat
  | 0, _ => []
  | n + 1, bs => ofBytes (bs.take w) :: elems w n (bs.drop w)

/-- Elements as bytes. -/
def packElems (w : Nat) (xs : List Nat) : List Byte := xs.flatMap (toBytes w)

/-- All elements of segment `i` up to part `p`. -/
def Core.elemsTo (c : Core) (j : VJob) (i p : Nat) : List Nat :=
  (List.range (p + 1)).flatMap fun q => elems j.size j.np (c.buf j.id (keyA i q))

/-- All elements of every segment before `i`, and of segment `i` up to part `p`. -/
def Core.elemsUpTo (c : Core) (j : VJob) (i p : Nat) : List Nat :=
  ((List.range i).flatMap fun k => c.elemsTo j k 15) ++ c.elemsTo j i p

/-! ## Elements (R98 to R105, R189 to R199) -/

/-- VCLAMP's exact value (R189). -/
def clampVal (a lo hi : Val) : Val :=
  if a.isNaN || lo.isNaN || hi.isNaN then .nan
  else if hi.below lo then hi else (a.larger lo).smaller hi

/-- VCMP's conditions 0 to 5 (R191). -/
def vcmpHolds (cond : Nat) (a b : Val) : Bool :=
  match cond with
  | 0 => a.eqv b
  | 1 => a.isNaN || b.isNaN || !a.eqv b
  | 2 => a.lt b
  | 3 => a.lt b || a.eqv b
  | 4 => b.lt a
  | _ => b.lt a || a.eqv b

/-- A logical or arithmetic right shift of a `w`-bit element (R198). -/
def shrElem (f : Fmt) (a n : Nat) : Nat :=
  if f.isSigned && a ≥ 2 ^ (f.bits - 1) then
    a / 2 ^ n + (2 ^ f.bits - 2 ^ (f.bits - n))
  else a / 2 ^ n

/-- One draw of VRAND (R199). -/
def randElem (y : Word) (k : Nat) : BitVec 32 :=
  let h0 := field y 0 32 ^^^ (field y 32 32 + BitVec.ofNat 32 k)
  let h1 := (h0 ^^^ (h0 >>> 16)) * 0x2C1B3C6D#32
  let h2 := (h1 ^^^ (h1 >>> 15)) * 0x297A2D39#32
  h2 ^^^ (h2 >>> 16)

/-- The exact value of the words that convert one value: `a`, `b`, `d` as values. -/
def VJob.exact (j : VJob) (k : Nat) (a b d : Val) : Val :=
  let rdn := j.mode = .rdn
  match j.op with
  | .add => a.add rdn b
  | .sub => a.add rdn b.negate
  | .mul => a.mul b
  | .fma => (a.mul b).add rdn d
  | .max => a.larger b
  | .min => a.smaller b
  | .abs => a.magnitude
  | .neg => a.negate
  | .iota => .ofInt k
  | _ => a

/-- The function of the words of R190. -/
def VFn.fn : VFn → Option Fn
  | .rcp => some .rcp
  | .rsqrt => some .rsqrt
  | .sqrt => some .sqrt
  | .exp2 => some .exp2
  | .log2 => some .log2
  | .tanh => some .tanh
  | _ => none

/-- One element of a word that works element by element: `k` is its index across all segments. -/
def VJob.element (j : VJob) (k a b d : Nat) : Nat :=
  let f := j.fmt
  match j.op with
  | .cmp => if vcmpHolds j.mod (f.value a) (f.value b) then 2 ^ f.bits - 1 else 0
  | .sel => if d ≠ 0 then a else b
  | .mov => a
  | .bcast => j.y.toNat % 2 ^ f.bits
  | .and => Nat.land a b
  | .or => Nat.lor a b
  | .xor => Nat.xor a b
  | .shl => a * 2 ^ (b % f.bits) % 2 ^ f.bits
  | .shr => shrElem f a (b % f.bits)
  | .rand =>
      let h := randElem j.y k
      if j.ef = 13 then h.toNat else convertTo .f32 (.fin false (h.toNat / 256) 1 24) .rne false
  | o =>
      match o.fn with
      | some g => fnConvert g f j.mode j.sat (f.value a)
      | none => convertTo f (j.exact k (f.value a) (f.value b) (f.value d)) j.mode j.sat

/-- The exact sum of a reduction or scan (R97, R192, R193). VSCAN takes the sign of a zero sum by R86. -/
def sumVal (scan : Bool) (rdn : Bool) (xs : List Val) : Val :=
  Val.sum (rdn && !(scan && xs.all fun x => x.isZero && !x.sign)) xs

/-- The largest or smallest of a list (R192). -/
def extremum (most : Bool) : List Val → Val
  | [] => .zero false
  | x :: xs => xs.foldl (fun a b => if most then a.larger b else a.smaller b) x

/-- The largest finite magnitude of VBSCL's target format (R104). -/
def targetMax (f : Fmt) : Val :=
  match f with
  | .i8 => .ofInt 127
  | .tws8 => .ofInt 2
  | f => f.value f.spec.maxFinite

/-- One block's scale (R104). -/
def blockScale (sc tf : Fmt) (xs : List Val) : Nat :=
  let m : Val := (xs.filter (!·.isNaN)).foldl (fun a x => a.larger x.magnitude) (Val.zero false)
  if m.isZero then convertTo sc (.ofInt 1) .rne false
  else if !m.isFinite then sc.spec.maxFinite
  else
    let s := convertTo sc (m.div (targetMax tf)) .rup false
    if sc.special s then sc.spec.maxFinite else s

/-- A scale that VQUANT or VDEQ refuses (R102, R103). -/
def scaleRefused (op : VFn) (s : Nat) : Bool :=
  s / 2 ^ 31 % 2 = 1 || (Fmt.f32.value s).isNaN || (op = .quant && s = 0)

/-- The value of element `x` under its block's scale. -/
def VJob.scaledVal (j : VJob) (x : Val) (s : Nat) : Val :=
  if j.op = .quant then x.div (Fmt.f32.value s) else x.mul (Fmt.f32.value s)

/-- The elements of a conversion's segment up to part `p`, as the values that are rounded. -/
def Core.convVals (c : Core) (j : VJob) (i p : Nat) : List Val :=
  let xs := (c.elemsTo j i p).map j.fmt.value
  if j.op.scaled then
    let ss := elems 4 j.blocks (c.buf j.id (keyB i 0))
    xs.mapIdx fun k x => j.scaledVal x (ss.getD (k / 32) 0)
  else xs

/-- Indices of `w` bits packed by R90. -/
def packIndices (w : Nat) (xs : List Nat) : Nat := xs.reverse.foldl (fun n x => n * 2 ^ w + x) 0

/-- The bytes of an entry, from codebook memory (R291). -/
def Core.entryBytes (c : Core) (bank e eb : Nat) : List Byte × Core := c.readMem .cb cirPC (bank * 32768 + 128 * e) eb

/-- The bytes that part `p` of segment `i` writes. -/
def Core.partBytes (c : Core) (j : VJob) (i p : Nat) (a b d : List Byte) : List Byte × Core :=
  match j.op with
  | .cbx =>
      let sp := j.cbxSpan i p
      let n := ofBytes a / 2 ^ (j.ixw * sp.1 % 8)
      let r := (List.range (sp.2 - sp.1 + 1)).foldl (fun x k =>
          let e := x.2.entryBytes j.bank (n / 2 ^ (j.ixw * k) % 2 ^ j.ixw) j.ebytes
          (x.1 ++ e.1, e.2)) ([], c)
      ((r.1.drop (16 * p % j.ebytes)).take 16, r.2)
  | .pack =>
      let xs := (elems 1 16 a).map fun v =>
        if j.mod / 4 % 2 = 1 then min v (2 ^ j.ixw - 1) else v % 2 ^ j.ixw
      (toBytes (2 * j.ixw) (packIndices j.ixw xs), c)
  | .unpack =>
      ((List.range 16).map fun k => BitVec.ofNat 8 (ofBytes a / 2 ^ (j.ixw * k) % 2 ^ j.ixw), c)
  | .bscl =>
      if p ≠ 15 then ([], c)
      else
        let sc : Fmt := if j.mod / 8 % 2 = 1 then .e4m3 else .f32
        let xs := (c.elemsTo j i 15).map j.fmt.value
        (packElems j.scaleBytes ((List.range j.blocks).map fun k =>
          blockScale sc j.ofmt ((xs.drop (32 * k)).take 32)), c)
  | .scan =>
      let before := (c.elemsUpTo j i p).map j.fmt.value
      let n := j.ns * i + j.np * p
      (packElems j.dfmt.bytes ((List.range j.np).map fun k =>
        convertTo j.dfmt (sumVal true (j.mode = .rdn) (before.take (n + k + 1))) j.mode j.sat), c)
  | .clamp =>
      let lh := c.buf j.id (keyB 0 0)
      let lo := j.fmt.value (ofBytes (lh.take j.size))
      let hi := j.fmt.value (ofBytes (lh.drop j.size))
      (packElems j.size ((elems j.size j.np a).map fun x =>
        convertTo j.fmt (clampVal (j.fmt.value x) lo hi) j.mode j.sat), c)
  | .cvt | .quant | .deq =>
      let xs := c.convVals j i p
      (packElems j.dfmt.bytes ((List.range j.np).map fun k =>
        convertElement j.dfmt j.mode j.sat xs (j.np * p + k)), c)
  | _ =>
      let ea := elems j.size j.np a
      let eb := elems j.size j.np b
      let ed := elems j.size j.np d
      (packElems j.size ((List.range j.np).map fun k =>
        j.element (j.ns * i + j.np * p + k) (ea.getD k 0) (eb.getD k 0) (ed.getD k 0)), c)

/-! ## Performing the reads -/

/-- Reads of this word from segment `i` on are dropped: no write of those segments performs (R102, R200). -/
def Core.cutVec (c : Core) (id i : Nat) : Core :=
  { c with timeline := c.timeline.filter fun e =>
      match e.act with
      | .vec j seg _ => !(j.id = id && i ≤ seg)
      | _ => true }

/-- A deferred fault of a vector word (R347). -/
def VJob.deferred (j : VJob) (code engine : Nat) (status : BitVec 32) : FaultInfo :=
  ⟨code, .deferred, engine, j.at_, true, status, 0, 0, none⟩

/-- The INVALID SCALE and CODEBOOK INDEX status words of a vector word: the bits below the opcode are a block index or a
bank in [14:12] and the segment (R102, R200). -/
def vecStatus (opc sub seg : Nat) : BitVec 32 :=
  1#8 ++ BitVec.ofNat 8 opc ++ 0#1 ++ BitVec.ofNat 3 sub ++ BitVec.ofNat 12 seg

/-- An index of segment `i` that lies beyond the loaded entries (R200). -/
def Core.cbxBad (c : Core) (j : VJob) (i : Nat) : Bool :=
  let first := i * (256 / j.ebytes)
  let r := indexRange j.ixw first (first + 256 / j.ebytes - 1)
  let n := ofBytes ((c.readMem .ls cirPV (j.aa + r.1) r.2).1) / 2 ^ (j.ixw * first % 8)
  let count := (c.banks.getD j.bank default).count
  (List.range (256 / j.ebytes)).any fun k => count ≤ n / 2 ^ (j.ixw * k) % 2 ^ j.ixw

/-- The deferred fault that falls with part 0 of segment `i`, if any. INVALID SCALE of VQUANT and VDEQ is raised on the cycle on
which the scales are read (R102; DEDUCED, unsafe, log entry 59). -/
def Core.vecFault (c : Core) (j : VJob) (i p : Nat) (side : List Byte) : Option FaultInfo :=
  if p ≠ 0 then none
  else if j.op.scaled then
    ((elems 4 j.blocks side).findIdx? (scaleRefused j.op)).map fun k =>
      j.deferred 0x24 2 (vecStatus j.op.opc (k % 8) i)
  else if j.op = .cbx && c.cbxBad j i then some (j.deferred 0x22 1 (vecStatus j.op.opc j.bank i))
  else none

/-- The act `vec`: part `p` of segment `i` read on core cycle `t`; a marching word's write is scheduled with the
issue order `seq` of its word. A segment number from CNT on stands for a gather cycle of VGATHER (R197). -/
def Core.vecAct (c : Core) (j : VJob) (i p t seq : Nat) : Core :=
  if j.cnt ≤ i then
    let g := i - j.cnt
    let ix := (List.range 16).map fun k =>
      let e := 16 * g + k
      ofBytes ((c.buf j.id (keyB (e / 64) (e % 64 / 4))).drop (4 * (e % 4)) |>.take 4)
    let r := ix.foldl (fun x v =>
      let b := x.2.readMem .ls cirPV (j.aa + v % 2 ^ (j.mod % 32) * j.size) j.size
      (x.1 ++ b.1, b.2)) (([] : List Byte), c)
    r.2.setBuf j.id (keyA i 0) r.1
  else
    let ra := if j.op.readsA then c.readMem .ls cirPV (j.aPart i p).1.toNat (j.aPart i p).2 else ([], c)
    let rb := if j.op.readsB then ra.2.readMem .ls cirPV (j.bPart i p).1.toNat 16 else ([], ra.2)
    let rs := if p = 0 then rb.2.readMem .ls cirPV (j.sidePart i).1.toNat (j.sidePart i).2 else ([], rb.2)
    let rd := if j.op.readsD then rs.2.readMem .ls cirPV (j.dPart i p).1.toNat (j.dPart i p).2 else ([], rs.2)
    match rd.2.vecFault j i p rs.1 with
    | some f => { rd.2.cutVec j.id i with faultQ := c.faultQ ++ [f] }
    | none =>
        let c1 := rd.2.setBuf j.id (keyA i p) ra.1
        let c2 := if j.op.readsB then c1.setBuf j.id (keyB i p) rb.1
          else if p = 0 && rs.1 ≠ [] then c1.setBuf j.id (keyB i 0) rs.1 else c1
        if !j.marches then c2
        else
          let o := c2.partBytes j i p ra.1 rb.1 rd.1
          if (j.dPart i p).2 = 0 then o.2
          else { o.2 with timeline :=
            ⟨t + j.op.latency, seq, .wr .ls [((j.dPart i p).1.toNat, (j.dPart i p).2)] o.1⟩ :: o.2.timeline }

/-! ## Performing the output phase -/

/-- `x` comes before `y` in VTOPK's order (R196). -/
def topBefore (x y : Val) : Bool := (x.isNaN && !y.isNaN) || (!x.isNaN && !y.isNaN && y.below x)

/-- Insertion that keeps elements of equal rank in their order. -/
def topInsert (x : Val × Nat) : List (Val × Nat) → List (Val × Nat)
  | [] => [x]
  | y :: ys => if topBefore y.1 x.1 || !topBefore x.1 y.1 then y :: topInsert x ys else x :: y :: ys

/-- The bytes of the whole footprint, in its order. VCOMPACT and VGATHER move elements and compute no result, so they write an
element's bytes as read, a NaN or a TWS8 element that is not canonical too (R194, R197 beside R85, R88, R187; DEDUCED, unsafe, log
entry 93). -/
def Core.outBytes (c : Core) (j : VJob) : List Byte :=
  let xs := c.elemsUpTo j (j.cnt - 1) 15
  let vs := xs.map j.fmt.value
  match j.op with
  | .rsum => toBytes j.dfmt.bytes (convertTo j.dfmt (sumVal false (j.mode = .rdn) vs) j.mode j.sat)
  | .rmax => toBytes j.dfmt.bytes (convertTo j.dfmt (extremum true vs) j.mode j.sat)
  | .rmin => toBytes j.dfmt.bytes (convertTo j.dfmt (extremum false vs) j.mode j.sat)
  | .topk =>
      let top := ((vs.zipIdx).foldl (fun l x => topInsert x l) []).take j.topK
      packElems j.size (top.map fun x => convertTo j.fmt x.1 .rne false) ++ packElems 4 (top.map (·.2))
  | .gather => (List.range j.gatherCycles).flatMap fun g => c.buf j.id (keyA (j.cnt + g) 0)
  | _ =>
      let sel := (List.range j.cnt).flatMap fun i => (List.range 16).flatMap fun p =>
        elems j.size j.np (c.buf j.id (keyB i p))
      let kept := ((xs.zip sel).filter fun x => x.2 ≠ 0).map (·.1)
      let bs := packElems j.size kept
      bs ++ List.replicate (256 * j.cnt - bs.length) 0

/-- How many elements VCOMPACT selects. -/
def Core.selected (c : Core) (j : VJob) : Nat :=
  ((List.range j.cnt).flatMap fun i => (List.range 16).flatMap fun p =>
    (elems j.size j.np (c.buf j.id (keyB i p))).filter (· ≠ 0)).length

/-- The act `vout`: the writes of the output phase are scheduled (R186, R194). -/
def Core.voutAct (c : Core) (j : VJob) (t seq : Nat) : Core :=
  let ps := j.outChunks.map fun x => (x.1, x.2.1)
  let ws := (takePieces ps (c.outBytes j)).mapIdx fun m w =>
    (⟨t + j.op.latency + m, seq, .wr .ls [(w.1, w.2.length)] w.2⟩ : Entry)
  let yw := if j.op = .compact then
      [(⟨t + j.op.latency, seq, .wy (BitVec.ofNat 4 j.mod) (BitVec.ofNat 64 (c.selected j))⟩ : Entry)]
    else []
  { c with timeline := yw ++ ws ++ c.timeline }

/-! ## Issue -/

/-- The word with what it reads on its issue cycle. `id` is its number in issue order. -/
def vecJob (op : VFn) (v : VOps) (i : Issue) (s : State) : VJob :=
  let sel := s.core.readCb (field v.mod 0 2)
  { id := s.core.seq, op := op, cnt := v.cnt.toNat, ef := v.ef.toNat
    da := (s.readA i v.da).toNat, ds := v.ds.toInt, aa := (s.readA i v.aa).toNat, as := v.as.toInt
    ba := (s.readA i v.ba).toNat, bs := v.bs.toInt, mod := v.mod.toNat
    y := s.core.readY (field v.mod 0 4)
    bank := (selBank sel).toNat
    ixw := if op = .cbx then selIxw sel else 2 * (fieldN v.mod 0 2 + 1)
    ebytes := selElems sel * efSize (selEf sel), t := i.t, at_ := i.at_ }

/-- The acts of a word at issue. -/
def VJob.acts (j : VJob) : List (Nat × Act) :=
  ((List.range j.cnt).flatMap fun i => (List.range 16).map fun p => (j.readAt i p, Act.vec j i p)) ++
    ((List.range j.gatherCycles).map fun g => (j.t + j.cnt + 16 + g, Act.vec j (j.cnt + g) 0)) ++
    (if j.op.output then [(j.outStart, Act.vout j)] else [])

/-- Element sizes of the A and D streams; indices ask for byte alignment only (R176). -/
def VJob.aligns (j : VJob) (selSize : Nat) : Nat × Nat :=
  match j.op with
  | .cbx => (1, selSize)
  | .pack => (1, 1)
  | .unpack => (1, 1)
  | .bscl => (j.size, j.scaleBytes)
  | _ => (j.size, j.dfmt.bytes)

/-- The selector checks of VCBX (R200, R291, R292). -/
def cbxCheck (op : VFn) (v : VOps) (i : Issue) (s : State) (k : Res) : Res :=
  if op ≠ .cbx then k
  else
    let sel := s.core.readCb (field v.mod 0 2)
    let e := selElems sel * efSize (selEf sel)
    if s.core.loadingNow (selBank sel) then .hold
    else if !s.core.selectorOk sel || !(e = 2 ^ Nat.log2 e && e ≤ 128) then
      .fault 0x22 1 (cbIndexStatus i.opc (selBank sel)) 0 0
    else k

/-- A vector word issues: a word with CNT 0 does nothing more (R65); otherwise the engine must accept it, and the
schedule is checked and entered (R172, R186). In a joined section a word that the engine does not accept raises SCHEDULE MISS cause 3,
also where it fails a check (DEDUCED, unsafe, log entry 57). -/
def vecWord (op : VFn) (v : VOps) (i : Issue) (s : State) : Res :=
  if v.cnt = 0 then .ok s
  else if i.t < s.core.vecFree then .hold
  else
    cbxCheck op v i s (
      let j := vecJob op v i s
      let al := j.aligns (efSize (selEf (s.core.readCb (field v.mod 0 2))))
      (s.lsCheck i 1 (j.plan al.1 al.2)).bind fun s =>
        .ok { s with core := { s.core.schedAll j.acts with vecFree := j.next } })

/-- Executing a vector word. -/
def execVec (op : VFn) (fn : Nat) (hd : Head) (v : VOps) (s : State) :=
  runWord op.opc fn .noShadow hd (vecWord op v) s

/-! ## The words, in the order of R188 and R100 -/

def execVadd (hd : Head) (v : VOps) (s : State) := execVec .add 0 hd v s
def execVsub (hd : Head) (v : VOps) (s : State) := execVec .sub 1 hd v s
def execVmul (hd : Head) (v : VOps) (s : State) := execVec .mul 2 hd v s
def execVfma (hd : Head) (v : VOps) (s : State) := execVec .fma 3 hd v s
def execVmax (hd : Head) (v : VOps) (s : State) := execVec .max 4 hd v s
def execVmin (hd : Head) (v : VOps) (s : State) := execVec .min 5 hd v s
def execVabs (hd : Head) (v : VOps) (s : State) := execVec .abs 6 hd v s
def execVneg (hd : Head) (v : VOps) (s : State) := execVec .neg 7 hd v s
def execVclamp (hd : Head) (v : VOps) (s : State) := execVec .clamp 8 hd v s
def execVrcp (hd : Head) (v : VOps) (s : State) := execVec .rcp 0 hd v s
def execVrsqrt (hd : Head) (v : VOps) (s : State) := execVec .rsqrt 1 hd v s
def execVsqrt (hd : Head) (v : VOps) (s : State) := execVec .sqrt 2 hd v s
def execVexp2 (hd : Head) (v : VOps) (s : State) := execVec .exp2 3 hd v s
def execVlog2 (hd : Head) (v : VOps) (s : State) := execVec .log2 4 hd v s
def execVtanh (hd : Head) (v : VOps) (s : State) := execVec .tanh 5 hd v s
def execVrsum (hd : Head) (v : VOps) (s : State) := execVec .rsum 0 hd v s
def execVrmax (hd : Head) (v : VOps) (s : State) := execVec .rmax 1 hd v s
def execVrmin (hd : Head) (v : VOps) (s : State) := execVec .rmin 2 hd v s
def execVscan (hd : Head) (v : VOps) (s : State) := execVec .scan 3 hd v s
def execVcmp (hd : Head) (v : VOps) (s : State) := execVec .cmp 0 hd v s
def execVsel (hd : Head) (v : VOps) (s : State) := execVec .sel 1 hd v s
def execVcompact (hd : Head) (v : VOps) (s : State) := execVec .compact 2 hd v s
def execViota (hd : Head) (v : VOps) (s : State) := execVec .iota 3 hd v s
def execVtopk (hd : Head) (v : VOps) (s : State) := execVec .topk 4 hd v s
def execVgather (hd : Head) (v : VOps) (s : State) := execVec .gather 0 hd v s
def execVbcast (hd : Head) (v : VOps) (s : State) := execVec .bcast 1 hd v s
def execVmov (hd : Head) (v : VOps) (s : State) := execVec .mov 2 hd v s
def execVand (hd : Head) (v : VOps) (s : State) := execVec .and 0 hd v s
def execVor (hd : Head) (v : VOps) (s : State) := execVec .or 1 hd v s
def execVxor (hd : Head) (v : VOps) (s : State) := execVec .xor 2 hd v s
def execVshl (hd : Head) (v : VOps) (s : State) := execVec .shl 3 hd v s
def execVshr (hd : Head) (v : VOps) (s : State) := execVec .shr 4 hd v s
def execVrand (hd : Head) (v : VOps) (s : State) := execVec .rand 0 hd v s
def execVcbx (hd : Head) (v : VOps) (s : State) := execVec .cbx 0 hd v s
def execVcvt (hd : Head) (v : VOps) (s : State) := execVec .cvt 0 hd v s
def execVquant (hd : Head) (v : VOps) (s : State) := execVec .quant 0 hd v s
def execVdeq (hd : Head) (v : VOps) (s : State) := execVec .deq 0 hd v s
def execVbscl (hd : Head) (v : VOps) (s : State) := execVec .bscl 0 hd v s
def execVpack (hd : Head) (v : VOps) (s : State) := execVec .pack 0 hd v s
def execVunpack (hd : Head) (v : VOps) (s : State) := execVec .unpack 0 hd v s

end Sys2Proof.Machine
end

