-- ==== Sys2Proof/Machine/Convert.lean ====
section
/-! DEFINITION. The scalar conversions CVT and FCLASS (R98, R99). -/

namespace Sys2Proof.Machine

/-- The format of a five-bit code; a reserved code never reaches a use. -/
def fmtOf (n : BitVec 5) : Fmt := (Fmt.ofCode n.toNat).getD .n64

/-- A result of a format in a g register: sign-extended for i8 to i64, else zero-extended (R98). -/
def extendTo (f : Fmt) (y : Nat) : Word :=
  if f.isSigned && y ≥ 2 ^ (f.bits - 1) then BitVec.ofInt 64 ((y : Int) - 2 ^ f.bits) else BitVec.ofNat 64 y

/-- CVT's result (R98). -/
def cvtWord (x : Word) (sf df : BitVec 5) (mode : BitVec 4) (sat : Bool) : Word :=
  extendTo (fmtOf df) (convertTo (fmtOf df) ((fmtOf sf).value x.toNat) (Mode.ofCode mode.toNat) sat)

def execCvt (hd : Head) (d : BitVec 5) (x : FSrc) (sat : Bool) (sf df : BitVec 5) (mode : BitVec 4) (s : State) :=
  runWord 0xD0 0 .both hd (fun i s => .ok (s.writeGAfter i 3 d (cvtWord (s.readFSrc i x) sf df mode sat))) s

def execFclass (hd : Head) (d : BitVec 5) (x : FSrc) (fmt : BitVec 5) (s : State) :=
  runWord 0xD7 0 .both hd
    (fun i s => .ok (s.writeGAfter i 3 d (BitVec.ofNat 64 (fclassMask (fmtOf fmt) (s.readFSrc i x).toNat)))) s

end Sys2Proof.Machine
end

