-- ==== Sys2Proof/Machine/Matrix.lean ====
section
/-! DEFINITION. The matrix engine: products (R299 to R310, R313), register moves (R311), tolerance loads (R316), checks,
location, correction and retry (R318 to R325). -/

namespace Sys2Proof.Machine

/-! ## The entry and the shape (R287, R289, R300, R301) -/

def entryAf (e : Word) : Nat := fieldN e 28 4
def entryBf (e : Word) : Nat := fieldN e 24 4
def entryBlock (e : Word) : Bool := bitAt e 22
def entryTensor (e : Word) : Bool := bitAt e 23
def entrySbase (e : Word) : Nat := fieldN e 11 11
def entryY (e : Word) : BitVec 4 := field e 7 4
def entryCbs (e : Word) : BitVec 2 := field e 5 2
def entryTol (e : Word) : BitVec 3 := field e 2 3

/-- The entry index of a product word (R289). -/
def entryIx (o : ProdOps) (s : State) : BitVec 4 := if o.ftk then field (s.core.readK o.ksel) 0 4 else o.ft

/-- K at most and the step of K for a pair of formats, none where the engine does not accept the pair (R300). -/
def pairLimits (fa fb : Nat) : Option (Nat × Nat) :=
  let q := fun n => n = 4 || n = 5
  let h := fun n => n = 2 || n = 3
  if fa = 0 && fb = 0 then some (4, 4)
  else if fa = 1 && fb = 1 then some (8, 4)
  else if h fa && h fb then some (64, 8)
  else if q fa && q fb then some (128, 8)
  else if (fa = 6 && (fb = 6 || q fb)) || (fb = 6 && q fa) then some (256, 8)
  else none

/-- K of a code (R301). -/
def kdim (code : BitVec 6) : Nat := 4 * (code.toNat + 1)

/-- The FORMAT TABLE reason of a product word, 0 when it passes (R289, R300, R301). `sel` is the entry's selector,
`dest` the bank, and `mr` says that the destination is a register. -/
def shapeReason (e sel : Word) (mr : Bool) (dest n k : Nat) : Nat :=
  let ixa := entryAf e = 14
  let ixb := entryBf e = 14
  let fa := if ixa then selEf sel else entryAf e
  let fb := if ixb then selEf sel else entryBf e
  if !bitAt e 0 then 1
  else
    match pairLimits fa fb with
    | none => 3
    | some (most, step) =>
        if k > most || k % step ≠ 0 then 4
        else if (ixa || ixb) && (k % selElems sel ≠ 0 || k / selElems sel * selIxw sel % 8 ≠ 0) then 4
        else if fa = 0 && n > 32 && (mr || dest = 61) then 4
        else 0

/-- One operand of a product word (R302). `rows` is M or N. -/
def operandOf (x : MSrc) (fmt : Nat) (sel : Word) (k : Nat) (i : Issue) (s : State) : ProdSrc :=
  let ix := fmt = 14
  { reg := match x with | .ls _ => false | .reg _ => true
    addr := match x with | .ls a => (s.readA i a).toNat | .reg m => m.toNat
    rowBytes := if ix then k / selElems sel * selIxw sel / 8 else k * efSize fmt
    fmt := if ix then selEf sel else fmt
    index := ix, ixw := selIxw sel, elems := selElems sel, scales := [] }

/-! ## Scales (R96, R304) -/

/-- A block scale or tensor scale that R96 refuses. -/
def blockRefused (x : Nat) : Bool := x ≥ 128 || x = 127
def tensorRefused (x : Nat) : Bool := x ≥ 2 ^ 31 || (Fmt.f32.value x).isNaN

/-- The block scales of one operand: for each row, its K-blocks (R304). -/
def Core.blockScales (c : Core) (base rows k : Nat) : List (List Nat) × Core :=
  (List.range rows).foldl (fun x r =>
    let y := (List.range ((k + 31) / 32)).foldl (fun z b =>
      let v := z.2.readMem .scale cirPC ((base + 8 * r + b) % 65536) 1
      (z.1 ++ [ofBytes v.1], v.2)) ([], x.2)
    (x.1 ++ [y.1], y.2)) ([], c)

/-- The INVALID SCALE status word of a product (R304). -/
def scaleStatus (kind opc : Nat) (isB : Bool) (blk row : Nat) : BitVec 32 :=
  BitVec.ofNat 8 kind ++ BitVec.ofNat 8 opc ++ bit1 isB ++ BitVec.ofNat 3 blk ++ BitVec.ofNat 6 row ++ 0#6

/-- The first refused block scale: row and K-block. -/
def firstRefused (ss : List (List Nat)) : Option (Nat × Nat) :=
  (ss.zipIdx).findSome? fun x => (x.1.findIdx? blockRefused).map fun b => (x.2, b)

/-! ## Landing (R306) -/

/-- A locked line under an operand in local store. -/
def Core.lockedLine (c : Core) (x : ProdSrc) (rows : Nat) : Option Nat :=
  if x.reg then none
  else (List.range rows).findSome? fun r =>
    let a := x.addr + x.rowBytes * r
    c.lockedLines.foldl (fun b l =>
      if a / 64 ≤ l && l ≤ (a + x.rowBytes - 1) / 64 then some (match b with | some m => min m l | none => l) else b) none

/-- A register has a write still to perform; `products` says whether products count. -/
def Core.regPending (c : Core) (m : Nat) (products : Bool) : Bool :=
  c.anyAct fun a => a.plainWrite true m || (products && a.product true m)

/-- An access of ACRD, ACWR, ACZERO or MDRAIN to a bank. -/
def Act.drainAccess (b : Nat) : Act → Bool
  | .wr .acc ps _ => inTile b ps
  | .move .acc ps _ _ _ => inTile b ps
  | .move _ _ .acc ps _ => inTile b ps
  | _ => false

/-- The banks of a product's destination. -/
def Prod.banks (p : Prod) : List Nat := if p.mr then [] else if p.pair then [p.dest, p.dest + 1] else [p.dest]

/-- The first condition under which the operands have not landed, with its detail (R306). A pending MRETRY counts as a product into its
destination, for it computes that product again (R324; DEDUCED, unsafe, log entry 92). Where several lines, registers or banks meet one condition,
the detail is that of A before B, of the first row and its lowest line, of A, B, then the destination, and of the first bank of a
pair: R306 gives them no order (DESIGN CHOICE, unsafe, log entry 94). -/
def Core.notLanded (c : Core) (p : Prod) : Option (Nat × Nat) :=
  let src := fun (x : ProdSrc) => x.reg && c.regPending x.addr true
  if p.t < c.mxFree then some (1, c.mxFree - p.t)
  else
    match c.lockedLine p.a p.m with
    | some l => some (2, l)
    | none =>
      match c.lockedLine p.b p.n with
      | some l => some (2, l)
      | none =>
        if src p.a then some (3, p.a.addr)
        else if src p.b then some (3, p.b.addr)
        else if p.mr && c.regPending p.dest false then some (3, p.dest)
        else
          match p.banks.find? fun b => c.anyAct (Act.drainAccess b) with
          | some b => some (4, b)
          | none =>
            if (p.a.index || p.b.index) && c.loadingNow (BitVec.ofNat 2 p.bank) then some (5, p.bank) else none

/-! ## Issue (R310) -/

/-- Operand reads in local store (R302, R307). -/
def ProdSrc.plan (x : ProdSrc) (t rows : Nat) : List Planned :=
  if x.reg then []
  else (List.range rows).map fun r =>
    ⟨t + 1 + r / 4, 5, false, x.addr + x.rowBytes * r, x.rowBytes, if x.index then 1 else efSize x.fmt, false⟩

/-- The acts of a product (R307). Of several rows and columns that one cycle reads with a bad index, the first here reports it: A's
rows before B's columns, the lowest number first, an order R303 does not give (DESIGN CHOICE, unsafe, log entry 94). -/
def Prod.acts (p : Prod) : List (Nat × Act) :=
  ((List.range p.m).map fun r => (p.t + 1 + r / 4, Act.prow p false r)) ++
    ((List.range p.n).map fun r => (p.t + 1 + r / 4, Act.prow p true r)) ++ [(p.t + 39, Act.pcomp p)]

/-- The effective stamp (R305). A REL product that is the first word of its own run compares with its own issue cycle, to which TBASE
is set on that cycle (DEDUCED, unsafe, log entry 93). -/
def effStamp (o : ProdOps) (i : Issue) (s : State) : BitVec 24 :=
  if o.rel then BitVec.ofNat 24 (s.core.cl i.c).tbase + o.stamp else o.stamp

/-- Units of core state that a product writes: those of the cells in its range (R372). -/
def Prod.rowUnits (p : Prod) : List Nat :=
  let w := if p.f64 then 8 else 4
  (List.range p.m).flatMap fun i =>
    unitsOf (destMem p.mr) (cellAddr p.mr p.f64 p.dest i 0) (w * (if p.pair then 32 else p.n)) ++
      (if p.pair then unitsOf .acc (cellAddr p.mr p.f64 p.dest i 32) (w * (p.n - 32)) else [])

/-- Units of the whole destination of a product, which a retry restores (R324, R372). -/
def Prod.units (p : Prod) : List Nat :=
  if p.mr then unitsOf .mr (destBase p.dest) Config.tileBytes
  else p.banks.flatMap fun b => unitsOf .acc (destBase b) Config.tileBytes

/-- Units of the pre-image banks that a product writes (R323, R372). -/
def Prod.preUnits (p : Prod) : List Nat :=
  unitsOf .acc (destBase 62) (Config.tileBytes * (if p.pair then 2 else 1))

/-- A product word with its destination. -/
def prodWord (opc : Nat) (mr : Bool) (dest : Nat) (o : ProdOps) (i : Issue) (s : State) : Res :=
  let stamp := effStamp o i s
  let d := (stamp - BitVec.ofNat 24 i.t).toNat
  if d ≠ 0 then (if d < 2 ^ 23 && !i.joined then .hold else schedMiss i 1 (d % 65536))
  else
    let ix := entryIx o s
    let e := s.core.ftab[ix.toNat]'(by omega)
    let sel := s.core.readCb (entryCbs e)
    let m := dim o.mcode
    let n := dim o.ncode
    let k := kdim o.kcode
    let reason := shapeReason e sel mr dest n k
    if reason ≠ 0 then formatTable reason opc ix.toNat
    else
      let a := operandOf o.a (entryAf e) sel k i s
      let b := operandOf o.b (entryBf e) sel k i s
      let f64 := a.fmt = 0
      let p : Prod :=
        { id := s.core.seq, opc := opc, mr := mr, dest := dest, f64 := f64, pair := f64 && n > 32 && !mr
          m := m, n := n, k := k, a := a, b := b, bank := (selBank sel).toNat
          st := if entryTensor e then some (fieldN (s.core.readY (entryY e)) 0 32) else none
          fti := ix.toNat, tol := entryTol e, mcode := o.mcode, ncode := o.ncode, kcode := o.kcode
          stamp := stamp, t := i.t, at_ := i.at_ }
      s.needBanks i p.banks (
        match s.core.notLanded p with
        | some (cond, det) => schedMiss i 2 (cond * 4096 + det % 4096)
        | none =>
          if (a.index || b.index) && !s.core.selectorOk sel then .fault 0x22 5 (cbIndexStatus opc (selBank sel)) 0 0
          else if p.st.any tensorRefused then .fault 0x24 5 (scaleStatus 2 opc false 0 0) 0 0
          else
            let sa := if entryBlock e then s.core.blockScales (32 * entrySbase e) m k else ([], s.core)
            let sb := if entryBlock e then sa.2.blockScales (32 * entrySbase e + 512) n k else ([], sa.2)
            match firstRefused sa.1, firstRefused sb.1 with
            | some (r, q), _ => .fault 0x24 5 (scaleStatus 1 opc false q r) 0 0
            | none, some (r, q) => .fault 0x24 5 (scaleStatus 1 opc true q r) 0 0
            | none, none =>
              let p := { p with a := { a with scales := sa.1 }, b := { b with scales := sb.1 } }
              ({ s with core := sb.2 }.lsCheck i 2 (p.a.plan i.t m ++ p.b.plan i.t n)).bind fun s =>
                s.touching (p.rowUnits ++ p.preUnits) fun s =>
                  .ok { s with core := { s.core.schedAll p.acts with mxFree := i.t + 32 } })

def execMma (hd : Head) (acc : BitVec 6) (o : ProdOps) (s : State) :=
  runWord 0x40 0 .noShadow hd (prodWord 0x40 false acc.toNat o) s

def execMmas (hd : Head) (acc : BitVec 6) (o : ProdOps) (s : State) :=
  runWord 0x41 0 .noShadow hd (prodWord 0x41 false acc.toNat o) s

def execMmac (hd : Head) (m : BitVec 3) (o : ProdOps) (s : State) :=
  runWord 0x42 0 .noShadow hd (prodWord 0x42 true m.toNat o) s

/-! ## Operand rows (R303, R307) -/

/-- The key of a buffered operand row, and the mark of a product that a bad index has stopped. -/
def keyRow (isB : Bool) (r : Nat) : Nat := if isB then 64 + r else r
def keyStopped : Nat := 128

/-- The elements of an index row: each index expands to its entry; none where an index is too large (R303). -/
def Core.expandRow (c : Core) (bank : Nat) (x : ProdSrc) (n count : Nat) : Option (List Byte) × Core :=
  let eb := x.elems * efSize x.fmt
  (List.range count).foldl (fun a q =>
    let v := n / 2 ^ (x.ixw * q) % 2 ^ x.ixw
    match a.1 with
    | none => a
    | some bs =>
        if (c.banks.getD bank default).count ≤ v then (none, a.2)
        else let e := a.2.entryBytes bank v eb; (some (bs ++ e.1), e.2)) (some [], c)

/-- A product stops: it has no effect, and the engine is free from the next cycle (R303). -/
def Core.stopProd (c : Core) (id t : Nat) : Core :=
  { c.setBuf id keyStopped [] with
    mxFree := t + 1
    timeline := c.timeline.filter fun e =>
      match e.act with
      | .prow p _ _ => p.id ≠ id
      | .pcomp p => p.id ≠ id
      | _ => true }

/-- The CODEBOOK INDEX status word of a product (R303). -/
def prodIndexStatus (p : Prod) (isB : Bool) (row : Nat) : BitVec 32 :=
  1#8 ++ BitVec.ofNat 8 p.opc ++ 0#2 ++ BitVec.ofNat 2 p.bank ++ BitVec.ofNat 6 row ++ bit1 isB ++ 0#5

/-- The act `prow` on core cycle `t`. -/
def Core.prowAct (c : Core) (p : Prod) (isB : Bool) (r t : Nat) : Core :=
  let x := if isB then p.b else p.a
  if c.bufs.any fun b => b.1 = p.id && b.2.1 = keyStopped then c
  else
    let raw := if x.reg then c.readMem .mr cirPM (mrRow x.addr r) x.rowBytes
      else c.readMem .ls cirPM (x.addr + x.rowBytes * r) x.rowBytes
    if !x.index then raw.2.setBuf p.id (keyRow isB r) raw.1
    else
      let e := raw.2.expandRow p.bank x (ofBytes raw.1) (p.k / x.elems)
      match e.1 with
      | some bs => e.2.setBuf p.id (keyRow isB r) bs
      | none =>
          let f : FaultInfo := ⟨0x22, .deferred, 5, p.at_, true, prodIndexStatus p isB r, 0, 0, none⟩
          { e.2.stopProd p.id t with faultQ := c.faultQ ++ [f] }

/-- A row or column after expansion and scaling (R304). -/
def Core.operandRow (c : Core) (p : Prod) (isB : Bool) (r : Nat) : List Val :=
  let x := if isB then p.b else p.a
  let f := (Fmt.ofCode x.fmt).getD .f32
  let vs := valuesOf f p.k (c.buf p.id (keyRow isB r))
  let ss := x.scales.getD r []
  vs.mapIdx fun k v =>
    let v1 := if ss = [] then v else v.mul (Fmt.e4m3.value (ss.getD (k / 32) 0))
    match p.st with
    | some st => if isB then v1 else v1.mul (Fmt.f32.value st)
    | none => v1

/-! ## The product (R97, R310, R313, R323, R325) -/

/-- The accumulator format. -/
def accFmt (f64 : Bool) : Fmt := if f64 then .f64 else .f32

/-- One cell of the product from its starting value: groups of `g` along K, in increasing order (R97). -/
def cellSum (f64 : Bool) (g : Nat) : Nat → Val → List Val → List Val → Val
  | 0, c, _, _ => c
  | n + 1, c, a, b =>
      if a = [] then c
      else
        let s := Val.sum false (((a.take g).zip (b.take g)).map fun x => x.1.mul x.2)
        let t := roundTo (accFmt f64) s .rne
        cellSum f64 g n (roundTo (accFmt f64) (c.add false t) .rne) (a.drop g) (b.drop g)

/-- R97 over a whole row and column. -/
def cellOf (f64 : Bool) (c : Val) (a b : List Val) : Val := cellSum f64 (if f64 then 4 else 32) a.length c a b

/-- The value that a cell starts from; a poisoned row reads as zeros (R299, R367). -/
def Core.startVal (c : Core) (p : Prod) (d i j : Nat) : Val :=
  if p.opc = 0x41 then .zero false
  else
    let f := accFmt p.f64
    f.value (ofBytes (c.readMem (destMem p.mr) cirPM (cellAddr p.mr p.f64 d i j) f.bytes).1)

/-- The bytes of row `i` of the result, by place in the destination's memory. -/
def Prod.rowPieces (p : Prod) (i : Nat) (vs : List Val) : List (Nat × List Byte) :=
  let f := accFmt p.f64
  let bs := vs.map fun v => toBytes f.bytes (convertTo f v .rne false)
  (cellAddr p.mr p.f64 p.dest i 0, (bs.take (if p.f64 then 32 else 64)).flatten) ::
    (if p.pair then [(cellAddr p.mr p.f64 p.dest i 32, (bs.drop 32).flatten)] else [])

/-- All rows of the product over its operands, from the cells as they stand. -/
def Core.prodRows (c : Core) (p : Prod) (opA opB : List (List Val)) : List (Nat × List Byte) :=
  (List.range p.m).flatMap fun i => p.rowPieces i ((List.range p.n).map fun j =>
    cellOf p.f64 (c.startVal p p.dest i j) (opA.getD i []) (opB.getD j []))

/-- The rows of its range that a product reads, which marks poison; MMAS reads none (R299, R367). -/
def Core.readRange (c : Core) (p : Prod) : Core :=
  if p.opc = 0x41 then c else (c.cellRowsIn p.mr p.f64 p.pair p.dest (· < p.m)).2

/-- The act `pcomp` on core cycle `t` = t0 + 39 (R299, R307). -/
def Core.pcompAct (c : Core) (p : Prod) (t seq : Nat) : Core :=
  let opA := (List.range p.m).map fun r => c.operandRow p false r
  let opB := (List.range p.n).map fun r => c.operandRow p true r
  let c1 := c.readRange p
  { c1 with timeline := ⟨t + 1, seq, .pdone p (c.prodRows p opA opB) ⟨p, opA, opB, .fresh⟩⟩ :: c1.timeline }

/-- The sums of R313 for one k: of column k of A or row k of B, and of their magnitudes. For a destination in FP64 format they are
steps on its lanes and keep 106 bits, though the rule's comment calls them FP64 sums (R312, R313; DEDUCED, unsafe, log entry 93). -/
def kSums (f64 : Bool) (xs : List (List Val)) (k : Nat) : Val × Val :=
  let v := xs.map fun r => r.getD k (.zero false)
  (laneSum f64 v, laneSum f64 (v.map Val.magnitude))

/-- Lanes of one direction updated for one k: each adds its element times the other operand's sum (R313).
The product is one step and its addition another: each is rounded (DEDUCED, unsafe, log entry 93). -/
def addLanes (f64 mag : Bool) (ls : List (Word × Word)) (xs : List (List Val)) (k : Nat) (sum : Val) :
    List (Word × Word) :=
  (List.range 64).map fun i =>
    match xs[i]? with
    | none => ls.getD i (0, 0)
    | some r =>
        let v := r.getD k (.zero false)
        let x := laneRound f64 ((if mag then v.magnitude else v).mul sum)
        laneOf f64 (laneRound f64 ((laneAt ls i).add false x))

/-- The lane update of a product, in increasing k (R313). -/
def prodLanes (f64 : Bool) (k : Nat) (opA opB : List (List Val)) (l : Lanes) : Lanes :=
  (List.range k).foldl (fun l k =>
    let a := kSums f64 opA k
    let b := kSums f64 opB k
    { l with rl := addLanes f64 false l.rl opA k b.1, rm := addLanes f64 true l.rm opA k b.2
             cl := addLanes f64 false l.cl opB k a.1, cm := addLanes f64 true l.cm opB k a.2 }) l

/-- The destination's cells, copied into the pre-image banks (R323): a poisoned row gives zeros there and sets PM, for the matrix engine
reads the whole of the destination (R365, R367; DEDUCED, unsafe, log entry 64). -/
def Core.takePre (c : Core) (p : Prod) : Core :=
  let copy := fun (c : Core) (src dst : Nat) =>
    let r := c.readMem (destMem p.mr) cirPM (destBase src) Config.tileBytes
    r.2.writeMem .acc (destBase dst) r.1
  let c1 := copy c p.dest 62
  if p.pair then copy c1 (p.dest + 1) 63 else c1

/-- An MMAS reseeds its destination as though its range had been written with +0 (R313). -/
def Core.zeroRange (c : Core) (p : Prod) : Core :=
  c.writePieces (destMem p.mr) ((List.range p.m).flatMap fun i => p.rowPieces i (List.replicate p.n (.zero false)))

/-- The fields of FIJ (R325). -/
def fijHits (fij : Word) (p : Prod) : Bool :=
  bitAt fij 63 && bitAt fij 62 == p.mr && fieldN fij 56 6 == p.dest

/-- The injection fires: one bit of one value in range is flipped, and EN returns to 0 (R325). -/
def Core.inject (c : Core) (p : Prod) : Core :=
  if !fijHits c.fij p then c
  else
    let row := fieldN c.fij 50 6
    let col := fieldN c.fij 44 6
    let bit := fieldN c.fij 38 6
    let c1 := { c with fij := c.fij &&& ~~~(BitVec.twoPow 64 63) }
    if row < p.m && col < p.n && bit < (accFmt p.f64).bits then
      let a := cellAddr p.mr p.f64 p.dest row col + bit / 8
      let m := c1.mem (destMem p.mr)
      c1.setMem (destMem p.mr) (m.put a (m.get a ^^^ BitVec.twoPow 8 (bit % 8)))
    else c1

/-- MXRET for a product (R323). -/
def Prod.mxret (p : Prod) : Word :=
  1#1 ++ bit1 p.mr ++ BitVec.ofNat 6 p.dest ++ BitVec.ofNat 8 p.opc ++ BitVec.ofNat 4 p.fti ++ p.mcode ++ p.ncode
    ++ p.kcode ++ 0#8 ++ p.stamp

/-- Cells, lanes and injection of a product or a retry (R310, R313, R325). -/
def Core.perform (c : Core) (p : Prod) (rows : List (Nat × List Byte)) (opA opB : List (List Val)) : Core :=
  let c1 := c.prepareLanes p.mr p.dest p.f64 p.pair
  let c2 := if p.opc = 0x41 then (c1.zeroRange p).reseedAt p.mr p.dest else c1
  let c3 := c2.writePieces (destMem p.mr) rows
  let l := prodLanes p.f64 p.k opA opB (c2.lanesRead p.mr p.dest)
  (c3.setLanes p.mr p.dest { l with uc := if l.uc = 0 then 1 else 2, tol := p.tol }).inject p

/-- The act `pdone`: the product on t + 40, with its retry record (R323). The lanes before the update are those that R312's
reseed leaves (DEDUCED, unsafe, log entry 64). -/
def Core.pdoneAct (c : Core) (p : Prod) (rows : List (Nat × List Byte)) (r : Retry) : Core :=
  let c1 := c.prepareLanes p.mr p.dest p.f64 p.pair
  { (c1.takePre p).perform p rows r.opA r.opB with
    retry := some { r with preLanes := c1.lanesRead p.mr p.dest }, mxret := p.mxret }

/-! ## Register moves (R308, R311, R316) -/

/-- An act of a product that touches a register as a source or as its destination. -/
def Act.prodTouches (m : Nat) : Act → Bool
  | .prow p isB _ => let x := if isB then p.b else p.a; x.reg && x.addr == m
  | a => a.product true m

/-- The hold of MLD, MST, MMOV and MZERO (R308). -/
def Core.regBusy (c : Core) (m : Nat) : Bool := c.anyAct (Act.prodTouches m)

/-- The cells of a part, as pieces of matrix-register memory (R151). -/
def MPart.pieces (m : Nat) : MPart → List (Nat × Nat)
  | .whole => [(mrRow m 0, Config.tileBytes)]
  | .row r => [(mrRow m r.toNat, 256)]
  | .col j => (List.range 64).map fun r => (mrRow m r + 4 * j.toNat, 4)
  | .diag => (List.range 64).map fun r => (mrRow m r + 4 * r, 4)

/-- The moves of an image: a list of (piece list, offset in the image, bytes), one for each cycle. -/
def MPart.steps (m : Nat) : MPart → List (List (Nat × Nat) × Nat)
  | .whole => (List.range 64).map fun r => ([(mrRow m r, 256)], 256 * r)
  | x => [(MPart.pieces m x, 0)]

/-- Accesses of a move in local store from cycle `t0`. -/
def movePlan (t0 : Nat) (write : Bool) (addr : Nat) (part : MPart) : List Planned :=
  rowPlan t0 (if part = .whole then 64 else 1) 256 write addr 4

def unitsOfPart (m : Nat) (part : MPart) : List Nat := (MPart.pieces m part).flatMap fun p => unitsOf .mr p.1 p.2

def execMld (hd : Head) (m : BitVec 3) (a : BitVec 4) (part : MPart) (s : State) :=
  runWord 0x43 0 .noShadow hd (fun i s =>
    if s.core.regBusy m.toNat then .hold
    else
      let addr := (s.readA i a).toNat
      (s.lsCheck i 2 (movePlan (i.t + 1) false addr part)).bind fun s =>
        s.touching (unitsOfPart m.toNat part) fun s =>
          let st := MPart.steps m.toNat part
          let acts := st.mapIdx fun r x => (i.t + 1 + r, Act.move .ls [(addr + x.2, 256)] .mr x.1 cirPM)
          .ok { s with core := (s.core.schedAll acts).sched (i.t + 1 + st.length) (.reseed true m.toNat) }) s

def execMst (hd : Head) (m : BitVec 3) (a : BitVec 4) (part : MPart) (s : State) :=
  runWord 0x44 0 .noShadow hd (fun i s =>
    if s.core.regBusy m.toNat then .hold
    else
      let addr := (s.readA i a).toNat
      (s.lsCheck i 2 (movePlan (i.t + 2) true addr part)).bind fun s =>
        .ok { s with core := s.core.schedAll ((MPart.steps m.toNat part).mapIdx fun r x =>
          (i.t + 1 + r, Act.move .mr x.1 .ls [(addr + x.2, 256)] cirPM)) }) s

def execMmov (hd : Head) (d m : BitVec 3) (part : MPart) (s : State) :=
  runWord 0x45 0 .noShadow hd (fun i s =>
    if s.core.regBusy d.toNat then .hold
    else
      s.touching (unitsOfPart d.toNat part) fun s =>
        .ok ((s.after i 1 (.move .mr (MPart.pieces m.toNat part) .mr (MPart.pieces d.toNat part) cirPM)).after i 2
          (.reseed true d.toNat))) s

def execMzero (hd : Head) (m : BitVec 3) (part : MPart) (s : State) :=
  runWord 0x46 0 .noShadow hd (fun i s =>
    if s.core.regBusy m.toNat then .hold
    else
      s.touching (unitsOfPart m.toNat part) fun s =>
        let ps := MPart.pieces m.toNat part
        .ok ((s.after i 1 (.wr .mr ps (List.replicate (ps.foldl (fun n p => n + p.2) 0) 0))).after i 1
          (.reseed true m.toNat))) s

def execMtols (hd : Head) (a : BitVec 4) (s : State) :=
  runWord 0x4C 0 .noShadow hd (fun i s =>
    let addr := (s.readA i a).toNat
    (s.lsCheck i 2 [⟨i.t + 1, 5, false, addr, 64, 8, false⟩]).bind fun s => .ok (s.after i 1 (.tols addr))) s

/-- The act `tols`: the eight registers take their values one cycle later (R316). -/
def Core.tolsAct (c : Core) (addr t seq : Nat) : Core :=
  let r := c.readMem .ls cirPM addr 64
  { r.2 with timeline := ((List.range 8).map fun n =>
      (⟨t + 1, seq, .wsys (.tol (BitVec.ofNat 3 n)) (BitVec.ofNat 64 (ofBytes ((r.1.drop (8 * n)).take 8)))⟩ : Entry))
      ++ r.2.timeline }

/-! ## Check, locate, correct, retry (R308, R318 to R324) -/

def destMr : MDest → Bool
  | .bank _ => false
  | .reg _ => true

def destNo : MDest → Nat
  | .bank b => b.toNat
  | .reg m => m.toNat

/-- The destination itself, or the first bank of its pair. -/
def Core.destFirst (c : Core) (d : MDest) : Nat :=
  if destMr d then destNo d else (c.pairOf (destNo d)).getD (destNo d)

/-- The condition of R308: every write to the destination, or to either bank of its pair, by a word up to place `seq` in
issue order has performed. -/
def Core.destSettled (c : Core) (d : MDest) (seq : Nat) : Bool :=
  let ds := if destMr d then [destNo d]
    else match c.pairOf (destNo d) with
      | some f => [f, f + 1]
      | none => [destNo d]
  !c.timeline.any fun e => e.seq ≤ seq && ds.any fun n => e.act.product (destMr d) n || e.act.plainWrite (destMr d) n

/-- MXRET holds a record of this destination. -/
def Core.recorded (c : Core) (d : MDest) : Bool := bitAt c.mxret 63 && c.retNames (destMr d) (c.destFirst d)

/-- Pre-image banks held for a destination (R318). -/
def Core.preImages (c : Core) (d : MDest) : Nat :=
  if c.recorded d then (if c.retry.any (·.prod.pair) then 2 else 1) else 0

/-- The MX CHECKSUM status word (R318). -/
def Core.mxStatus (c : Core) (reason opc : Nat) (d : MDest) : BitVec 32 :=
  BitVec.ofNat 8 reason ++ BitVec.ofNat 8 opc ++ bit1 (destMr d) ++ BitVec.ofNat 6 (destNo d)
    ++ BitVec.ofNat 2 (c.preImages d) ++ 0#7

/-- The banks that a check word names must be allocated (R280). -/
def State.needDest (s : State) (i : Issue) (d : MDest) (k : Res) : Res :=
  s.needBanks i (if destMr d then [] else [destNo d]) k

/-- The check of every row and column on this cycle. -/
def Core.checkAll (c : Core) (d : MDest) : CheckRes × Core := c.checkDest (destMr d) (destNo d) allLines allLines

def CheckRes.clean (r : CheckRes) : Bool := r.rows = [] && r.cols = []

/-- MCHK on cycle `i.t` (R319). With NXT, the fault counts the word as completed. -/
def mchkStep (d : MDest) (nxt : Bool) (seq : Nat) (i : Issue) (s : State) : Res :=
  if !s.core.destSettled d seq then .hold
  else
    let r := s.core.checkAll d
    if r.1.clean then .ok { s with core := (r.2.addUnchecked r.1.skipped).cleanUC (destMr d) (destNo d) }
    else
      let st := s.core.mxStatus 1 0x48 d
      if nxt then .ok (State.raise { s with core := r.2.addUnchecked r.1.skipped }
        (i.info 0x30 5 st (maskOf r.1.rows) (maskOf r.1.cols) true))
      else .fault 0x30 5 st (maskOf r.1.rows) (maskOf r.1.cols)

/-- MLOC's result (R321). -/
def locWord (r : CheckRes) : Word :=
  bit1 (r.rows.length = 1 && r.cols.length = 1) ++ bit1 r.clean ++ BitVec.ofNat 6 (min r.rows.length 63)
    ++ BitVec.ofNat 6 (min r.cols.length 63) ++ 0#36 ++ BitVec.ofNat 6 (r.rows.headD 0) ++ 0#2
    ++ BitVec.ofNat 6 (r.cols.headD 0)

def mlocStep (d : MDest) (g : BitVec 5) (seq : Nat) (i : Issue) (s : State) : Res :=
  if !s.core.destSettled d seq then .hold
  else
    let r := s.core.checkAll d
    .ok ({ s with core := r.2.addUnchecked r.1.skipped }.writeGAfter i 2 g (locWord r.1))

/-- The value of method 1: R97 from the pre-image and the retained operands, or the pre-image cell itself (R322). It reads the
pre-image cell, but for a cell within the range of an MMAS (R367). -/
def Core.methodOne (c : Core) (r : Retry) (row col : Nat) : List Byte × Core :=
  let p := r.prod
  let f := accFmt p.f64
  let inside : Bool := row < p.m && col < p.n
  let pre := if inside && p.opc = 0x41 then (List.replicate f.bytes 0, c)
    else c.readMem .acc cirPM (cellAddr false p.f64 62 row col) f.bytes
  let sum := cellOf p.f64 (f.value (ofBytes pre.1)) (r.opA.getD row []) (r.opB.getD col [])
  (if inside then toBytes f.bytes (convertTo f sum .rne false) else pre.1, pre.2)

/-- The value of method 2: the row's lane less the row's other cells (R322). -/
def Core.methodTwo (c : Core) (mr : Bool) (d row col : Nat) : List Byte × Core :=
  let l := c.lanesOf mr d
  let f := accFmt l.f64
  let r := c.cellRow mr l.f64 (l.paired && !mr) d row
  let q := laneSum false ((r.1.zipIdx.filter fun x => x.2 ≠ col).map (·.1))
  (toBytes f.bytes (convertTo f ((c.rowLane mr d row l.rl).add false q.negate) .rne false), r.2)

/-- The retry record by which MFIX corrects a cell exactly: MXRET names the destination, and UC is 1 (R322). -/
def Core.exactFor (c : Core) (d : MDest) : Option Retry :=
  if c.recorded d && (c.lanesOf (destMr d) (c.destFirst d)).uc = 1 then c.retry else none

/-- The corrected cell, by method 1 where it may be used, else by method 2 (R322). -/
def Core.fixedCell (c : Core) (d : MDest) (row col : Nat) : List Byte × Core :=
  match c.exactFor d with
  | some r => c.methodOne r row col
  | none => c.methodTwo (destMr d) (c.destFirst d) row col

/-- MFIX on cycle `i.t` (R322). -/
def mfixStep (d : MDest) (g : BitVec 5) (seq : Nat) (i : Issue) (s : State) : Res :=
  if !s.core.destSettled d seq then .hold
  else
    let r := s.core.checkAll d
    let c := r.2.addUnchecked r.1.skipped
    let mr := destMr d
    let first := s.core.destFirst d
    if r.1.clean then .ok ({ s with core := c }.writeGAfter i 2 g 0)
    else
      match r.1.rows, r.1.cols with
      | [row], [col] =>
          let fix := c.fixedCell d row col
          let two := (c.exactFor d).isNone
          let addr := cellAddr mr (c.lanesOf mr first).f64 first row col
          State.touching { s with core := fix.2 } (unitsOf (destMem mr) addr fix.1.length) fun s =>
            .ok ((s.after i 1 (.fix mr (destNo d) row col addr fix.1 two i.at_)).writeGAfter i 2 g (if two then 2 else 1))
      | _, _ => .fault 0x30 5 (s.core.mxStatus 3 0x4A d) (maskOf r.1.rows) (maskOf r.1.cols)

/-- The act `fix`: the correction and the check after it. A mismatch is a fault that is taken before any word of this
cycle (R318, R322). -/
def Core.fixAct (c : Core) (mr : Bool) (named row col addr : Nat) (bs : List Byte) (two : Bool) (pl : Place) : Core :=
  let c1 := c.writeMem (destMem mr) addr bs
  let c2 := if two then c1.setCir cirM2 else c1
  let r := c2.checkDest mr named [row] [col]
  let d : MDest := if mr then .reg (BitVec.ofNat 3 named) else .bank (BitVec.ofNat 6 named)
  if r.1.clean then r.2.addUnchecked r.1.skipped
  else { r.2 with faultQ := r.2.faultQ ++ [⟨0x30, .precise, 5, pl, true, c.mxStatus 2 0x4A d, maskOf r.1.rows,
    maskOf r.1.cols, none⟩] }

/-- MX RETRY LOST (R324). -/
def retryLost (reason : Nat) (d : MDest) : Res :=
  .fault 0x31 5 (BitVec.ofNat 8 reason ++ 0x4B#8 ++ bit1 (destMr d) ++ BitVec.ofNat 6 (destNo d) ++ 0#9) 0 0

/-- The bytes of the pre-image banks of a recorded product, read (R323, R367). -/
def Core.preBytes (c : Core) (p : Prod) : List (List Byte) × Core :=
  (if p.pair then [62, 63] else [62]).foldl (fun x b =>
    let r := x.2.readMem .acc cirPM (destBase b) Config.tileBytes
    (x.1 ++ [r.1], r.2)) ([], c)

/-- MRETRY on cycle `i.t` (R324): the record is the one that stands then. -/
def mretryStep (d : MDest) (seq : Nat) (i : Issue) (s : State) : Res :=
  let c := s.core
  if !c.destSettled d seq || i.t < c.mxFree then .hold
  else if !bitAt c.mxret 63 then retryLost 1 d
  else if !c.retNames (destMr d) (destNo d) then retryLost 2 d
  else if (c.lanesOf (destMr d) (destNo d)).uc ≠ 1 then retryLost 3 d
  else
    match c.retry with
    | none => retryLost 1 d
    | some r =>
      s.touching (r.prod.units) fun s =>
        let pre := s.core.preBytes r.prod
        .ok { s with core := { (pre.2.sched (i.t + 1) (.restore r pre.1)).sched (i.t + 39) (.rcomp r) with mxFree := i.t + 32 } }

/-- The act `restore`: cells and lanes from the pre-image that the word found (R324). -/
def Core.restoreAct (c : Core) (r : Retry) (pre : List (List Byte)) : Core :=
  let p := r.prod
  let c1 := (pre.zipIdx).foldl (fun c x => c.writeMem (destMem p.mr) (destBase (p.dest + x.2)) x.1) c
  c1.setLanes p.mr p.dest r.preLanes

/-- The act `rcomp`: the recorded product from the restored cells, which it reads (R324, R367). -/
def Core.rcompAct (c : Core) (r : Retry) (t seq : Nat) : Core :=
  let c1 := c.readRange r.prod
  { c1 with timeline := ⟨t + 1, seq, .rdone r (c.prodRows r.prod r.opA r.opB)⟩ :: c1.timeline }

/-- The act `rdone`: MXRET and UC stay as they were (R324). -/
def Core.rdoneAct (c : Core) (r : Retry) (rows : List (Nat × List Byte)) : Core :=
  let p := r.prod
  let c1 := c.perform p rows r.opA r.opB
  { c1.setLanes p.mr p.dest { c1.lanesOf p.mr p.dest with uc := 1 } with mxret := c.mxret }

/-- MDRAIN on cycle `i.t` (R320). -/
def mdrainStep (acc : BitVec 6) (a : BitVec 4) (mcode ncode : BitVec 3) (first : BitVec 6) (seq : Nat) (i : Issue)
    (s : State) : Res :=
  let d : MDest := .bank acc
  let m := dim mcode
  let whole := first = 0 && m = 64
  if !s.core.destSettled d seq then .hold
  else
    let rows := (List.range m).map (first.toNat + ·)
    let cols := if whole then allLines else []
    let r := s.core.checkDest false acc.toNat rows cols
    if !r.1.clean then .fault 0x30 5 (s.core.mxStatus 1 0x47 d) (maskOf r.1.rows) (maskOf r.1.cols)
    else
      let addr := (s.readA i a).toNat
      (s.lsCheck i 2 (rowPlan (i.t + 2) m (4 * dim ncode) true addr 4)).bind fun s =>
        let c := (s.core.checkDest false acc.toNat rows cols).2.addUnchecked r.1.skipped
        .ok (drainGo acc.toNat first.toNat m (dim ncode) addr i
          { s with core := if whole then c.cleanUC false acc.toNat else c })

/-- The step of a waiting check word on cycle `i.t`. -/
def checkStep (w : Instr) (seq : Nat) (i : Issue) (s : State) : Res :=
  match w with
  | .mchk _ d nxt => mchkStep d nxt seq i s
  | .mloc _ d g => mlocStep d g seq i s
  | .mfix _ d g => mfixStep d g seq i s
  | .mretry _ d => mretryStep d seq i s
  | .mdrain _ acc a mcode ncode first _ => mdrainStep acc a mcode ncode first seq i s
  | _ => .hold

/-- A check word at issue: it acts at once or waits (R308). -/
def checkWord (w : Instr) (i : Issue) (s : State) : Res := (checkStep w s.core.seq i s).orWait i s (.check w s.core.seq)

def execMchk (hd : Head) (d : MDest) (nxt : Bool) (s : State) :=
  runWord 0x48 0 .noShadow hd (fun i s => s.needDest i d (checkWord (.mchk hd d nxt) i s)) s

def execMloc (hd : Head) (d : MDest) (g : BitVec 5) (s : State) :=
  runWord 0x49 0 .noShadow hd (fun i s => s.needDest i d (checkWord (.mloc hd d g) i s)) s

def execMfix (hd : Head) (d : MDest) (g : BitVec 5) (s : State) :=
  runWord 0x4A 0 .noShadow hd (fun i s => s.needDest i d (checkWord (.mfix hd d g) i s)) s

def execMretry (hd : Head) (d : MDest) (s : State) :=
  runWord 0x4B 0 .noShadow hd (fun i s => s.needDest i d (checkWord (.mretry hd d) i s)) s

def execMdrain (hd : Head) (acc : BitVec 6) (a : BitVec 4) (mcode ncode : BitVec 3) (first : BitVec 6)
    (grp : BitVec 2) (s : State) :=
  runWord 0x47 0 .noShadow hd (fun i s =>
    s.needBanks i [acc.toNat] (s.needBands i acc.toNat first.toNat (dim mcode) grp (
      checkWord (.mdrain hd acc a mcode ncode first grp) i s))) s

end Sys2Proof.Machine
end

