-- ==== Sys2Proof/Machine/Graft.lean ====
section
/-! DEFINITION. What the graft slices do: pages and their memory (R202, R203), patch names (R230), composition (R233,
R264, R265), conflicts (R234 to R236), sealing and folding (R238, R239), capacity (R241, R242). -/

namespace Sys2Proof.Machine

/-! ## Pages and memory behind handles -/

/-- Bytes of a page size (R202). -/
def pageBytes (psz : BitVec 2) : Nat :=
  match psz.toNat with
  | 0 => 64 * 1024
  | 1 => 2 * 1024 * 1024
  | 2 => 1024 * 1024 * 1024
  | _ => 64 * 1024 * 1024 * 1024

/-- The address in `gmem` of a physical address: each tier has a space of its own, and each die its canopy SRAM; the package has
one LPDDR-6 (R13). -/
def physKey (tier : BitVec 3) (home : BitVec 2) (phys : Nat) : Nat :=
  (tier.toNat * 4 + (if tier.toNat = 0 then home.toNat else 0)) * 2 ^ 57 + phys

def Handle.key (h : Handle) (off : Nat) : Nat := physKey h.tier h.home (h.phys + off)
def pageKey (p : Page) (va : Nat) : Nat := physKey p.tier p.home (p.phys + (va - p.va))

/-- A page holds a virtual address. -/
def pageHolds (p : Page) (va : Nat) : Bool := p.va ≤ va && va < p.va + pageBytes p.psz

/-- The valid mapping of a tenant's virtual address (R203). -/
def State.pageAt (s : State) (tenant : BitVec 4) (va : Nat) : Option Page :=
  s.pages.find? fun p => p.tenant = tenant && !p.revoked && pageHolds p va

/-- The handle that a mapping gives (R202); a page of a peer device carries only PP (R203). -/
def pageHandle (p : Page) : Handle :=
  { valid := true, tier := p.tier, home := p.home, psz := p.psz, pr := p.pr && p.tier ≠ 3, pp := p.pp, pd := p.pd && p.tier ≠ 3
    tenant := p.tenant, tid := p.tid, fmt := p.fmt, base := p.base, count := p.count, va := p.va, phys := p.phys }

/-- A page lies within its tier: the area for bases in its die's canopy SRAM, the LPDDR-6, the root drawer (R13). -/
def pageFits (areas : Vector CanopyArea 4) (p : Page) : Bool :=
  match p.tier.toNat with
  | 0 => p.phys + pageBytes p.psz ≤ (areas[p.home.toNat]'(by omega)).base
  | 1 => p.phys + pageBytes p.psz ≤ Config.lpddrBytes
  | 2 => p.phys + pageBytes p.psz ≤ Config.drawerBytes
  | 3 => true
  | _ => false

/-- Compute die of a physical core (R11). -/
def dieOf (core : Nat) : Nat := core / 48

/-! ## Tensors (R228, R229) -/

/-- The element format of a tensor; a refused format never reaches a slice (R228). -/
def Tensor.fmt (t : Tensor) : Fmt := (Fmt.ofCode t.desc.fmt.toNat).getD .n8
def Tensor.size (t : Tensor) : Nat := t.fmt.bytes
def Tensor.count (t : Tensor) : Nat :=
  t.desc.e3.toNat * t.desc.e2.toNat * t.desc.e1.toNat * t.desc.e0.toNat
def Tensor.perGranule (t : Tensor) : Nat := 256 / t.size
def Tensor.granules (t : Tensor) : Nat := (t.count * t.size + 255) / 256
def Tensor.baseva (t : Tensor) : Nat := t.desc.baseva.toNat

/-- The descriptor with a TID of a tenant. -/
def State.tensorOf (s : State) (tenant : BitVec 4) (tid : BitVec 24) : Option Tensor :=
  s.tensors.find? fun t => t.desc.tid = tid && t.tenant = tenant

/-- One tensor of a tenant changes. -/
def State.setTensor (s : State) (t : Tensor) : State :=
  { s with tensors := s.tensors.map fun x => if x.desc.tid = t.desc.tid && x.tenant = t.tenant then t else x }

/-- The home die of a tensor: that of its pages (R229). A page of a peer device is none of them, since a TID names a tensor of one
device (R228, R244). -/
def State.homeOf (s : State) (t : Tensor) : Nat :=
  match s.pages.find? fun p => p.tenant = t.tenant && p.tid = t.desc.tid && p.tier ≠ 3 with
  | some p => p.home.toNat
  | none => 0

/-! ## Names (R230) -/

def nameTask (n : Word) : Nat := fieldN n 28 36
def nameOrigin (n : Word) : Nat := fieldN n 18 10
def nameInv (n : Word) : Bool := bitAt n 0
/-- The name of a task's patch or kick with a sequence number (R231, R340). -/
def makeName (k6 : Word) (origin : BitVec 10) (seq : Nat) : Word :=
  (k6 <<< 28) ||| (origin.setWidth 64 <<< 18) ||| (BitVec.ofNat 64 seq <<< 1)

/-! ## Footprints -/

/-- The data index of an element under a record, if its footprint holds it (R248). -/
def PatchRec.at? (r : PatchRec) (e : Nat) : Option Nat :=
  if e < r.first then none
  else
    let d := e - r.first
    if r.rows ≤ 1 || r.pitch = 0 then (if d < r.cols then some d else none)
    else if d / r.pitch < r.rows && d % r.pitch < r.cols then some (d / r.pitch * r.cols + d % r.pitch)
    else none

/-- The elements of a footprint, row by row. -/
def footElems (first rows cols pitch : Nat) : List Nat :=
  (List.range rows).flatMap fun i => (List.range cols).map fun j => first + i * pitch + j

def PatchRec.elems (r : PatchRec) : List Nat := footElems r.first r.rows r.cols r.pitch

/-- The granules of a footprint in a tensor, each once, lowest first. -/
def Tensor.granulesOf (t : Tensor) (r : PatchRec) : List Nat :=
  ((List.range r.rows).flatMap fun i =>
    let lo := (r.first + i * r.pitch) / t.perGranule
    (List.range ((r.first + i * r.pitch + r.cols - 1) / t.perGranule - lo + 1)).map (lo + ·)).eraseDups

/-- A record stands in the chain of a granule: it covers it and has not been folded there. -/
def Tensor.stands (t : Tensor) (r : PatchRec) (g : Nat) : Bool := (t.granulesOf r).contains g && !r.folded.contains g

/-- The chain of one granule, in canonical order. -/
def Tensor.chainAt (t : Tensor) (g : Nat) : List PatchRec := t.chain.filter fun r => t.stands r g

/-- Numbers in rising order. -/
def sortNat (xs : List Nat) : List Nat :=
  xs.foldr (fun x ys => ys.takeWhile (· < x) ++ x :: ys.dropWhile (· < x)) []

/-- Two records share an element where both still stand: what has been folded is removed from its granule, and shares no element there
(R236, R239, R252, R256; DEDUCED, unsafe, log entry 90). -/
def Tensor.share (t : Tensor) (p q : PatchRec) : Bool :=
  q.elems.any fun e => (p.at? e).isSome && !p.folded.contains (e / t.perGranule) && !q.folded.contains (e / t.perGranule)

/-- A record put at its place in canonical order (R230). -/
def insertRec (r : PatchRec) : List PatchRec → List PatchRec
  | [] => [r]
  | x :: xs => if r.name.ult x.name then r :: x :: xs else x :: insertRec r xs

/-- Overwrites and Restores (R234). -/
def PKind.overwrites (k : PKind) : Bool := k = .st || k = .restore

/-- Kinds alone commute (R234). -/
def kindsCommute (a b : PKind) : Bool := !PKind.overwrites a && !PKind.overwrites b && a = b

/-- R235: the same task, or one origin with the one's RS no greater than the other's SF. -/
def orderedRecs (p q : PatchRec) : Bool :=
  nameOrigin p.name = nameOrigin q.name &&
    (nameTask p.name = nameTask q.name || p.rs.any (· ≤ q.sf) || q.rs.any (· ≤ p.sf))

/-- The 64-bit digest of a record's kind, data format, footprint and data (R243). -/
def recDigest (kind : PKind) (ef first rows cols pitch : Nat) (data : List Nat) : Word :=
  let k := match kind with | .st => 0 | .add => 1 | .max => 2 | .min => 3 | .xor => 4 | .or => 5 | .and => 6 | .restore => 7
  Config.digest (k :: ef :: footElems first rows cols pitch ++ data)

/-- Bytes of the patch data area that a record uses (R242). The data of an inverse of XOR counts, as that of an additive one does: R242
names the data of additive inverses and Restores only (DEDUCED, unsafe, log entry 93). -/
def PatchRec.dataBytes (r : PatchRec) : Nat :=
  if r.kind = .restore then 0
  else (r.data.length * ((Fmt.ofCode r.ef).getD .n8).bytes + 255) / 256 * 256

/-! ## Composition (R233) -/

/-- The value that a record gives an element whose value beneath is `v`: raw bits of the tensor's format. -/
def applyRec (tf : Fmt) (r : PatchRec) (v d : Nat) (prior : Nat) : Nat :=
  let df := if tf = .n64 then Fmt.n64 else (Fmt.ofCode r.ef).getD tf
  let x := df.value d
  let y := tf.value v
  match r.kind with
  | .st => convertTo tf x .rne false
  | .add => convertTo tf (Val.add false y x) .rne r.sat
  | .max => convertTo tf (y.larger x) .rne false
  | .min => convertTo tf (y.smaller x) .rne false
  | .xor => v ^^^ d
  | .or => v ||| d
  | .and => v &&& d
  | .restore => convertTo tf (tf.value prior) .rne false

/-- Compose over the records of a chain in canonical order, keeping the value beneath each record (R233). -/
def composeOver (tf : Fmt) (e : Nat) : List PatchRec → Nat → List (Word × Nat) → Nat × List (Word × Nat)
  | [], v, ps => (v, ps)
  | r :: rs, v, ps =>
      match r.at? e with
      | none => composeOver tf e rs v ps
      | some i =>
          let d := if r.poisoned then 0 else r.data.getD i 0
          let prior := ((ps.find? fun x => x.1 = r.name &&& ~~~1#64).map (·.2)).getD v
          composeOver tf e rs (applyRec tf r v d prior) ((r.name, v) :: ps)

/-- A byte lies in a dead unit (R226). -/
def State.isDead (s : State) (key : Nat) : Bool := s.dead.contains (key / 2 ^ 57, key % 2 ^ 57 / 4096)

/-- A read of a base line meets poison (R367); a dead unit is not read. -/
def State.gbad (s : State) (key : Nat) : Bool := s.gpoison.contains (key / 64) && !s.isDead key

/-- A byte of memory behind a handle: zero in a dead unit and in a poisoned line (R226, R367). -/
def State.gbyte (s : State) (key : Nat) : Byte := if s.isDead key || s.gbad key then 0 else s.gmem.get key

/-- What composing one granule gives: its 256 bytes, the chain's depth, and the lines of it that poison reached. -/
structure Granule where
  bytes : List Byte
  depth : Nat
  bad : List Nat
  deriving DecidableEq, Repr

/-- The 256 bytes at virtual address `va` of a tensor, composed over given base bytes and base poison with given records. Bytes that
are no element of the tensor read as zero (R211). -/
def Tensor.compose (t : Tensor) (va : Nat) (rs : List PatchRec) (depth : Nat) (base : Nat → Byte) (baseBad : Nat → Bool) : Granule :=
  let b := t.baseva
  let sz := t.size
  let inside := fun a => b ≤ a && a < b + t.count * sz
  let elem := fun i =>
    let a := va + i * sz
    if !inside a then toBytes sz 0
    else toBytes sz (composeOver t.fmt ((a - b) / sz) rs (ofBytes ((List.range sz).map fun j => base (i * sz + j))) []).1
  let bad := (List.range 4).filter fun l =>
    inside (va + 64 * l) &&
      (baseBad l ||
        rs.any fun r => r.poisoned && (List.range (64 / sz)).any fun j => (r.at? ((va + 64 * l + j * sz - b) / sz)).isSome)
  ⟨(List.range (256 / sz)).flatMap elem, depth, bad⟩

/-- The chain of the granule at virtual address `va` of a tensor. -/
def Tensor.chainOver (t : Tensor) (va : Nat) : List PatchRec :=
  if t.baseva ≤ va then t.chainAt ((va - t.baseva) / 256) else []

/-- The 256 bytes at virtual address `va`, whose base lies at `key` of `gmem`, composed with the records that `incl`
admits. -/
def State.composeGranule (s : State) (t : Tensor) (va key : Nat) (incl : PatchRec → Bool) : Granule :=
  let chain := t.chainOver va
  t.compose va (chain.filter incl) chain.length (fun x => s.gbyte (key + x)) fun l => s.gbad (key + 64 * l)

/-- Whether a record enters a read by core `x` with an observed set (R265). An inverse enters only with its original. -/
def Tensor.included (t : Tensor) (home x : Nat) (observed : List PName) (r : PatchRec) : Bool :=
  let ok := fun (r : PatchRec) => dieOf x = home || r.issuer = x || observed.contains (r.tid.toNat, r.name)
  ok r && (!nameInv r.name ||
    match t.chain.find? (fun p => p.name = r.name &&& ~~~1#64) with
    | some p => ok p
    | none => true)

/-- One granule of a page as the core on `x` reads it through a handle (R264, R265). A page without a tensor has no
elements (DEDUCED, unsafe, log entry 18). -/
def State.readGranule (s : State) (h : Handle) (off : Nat) : Granule :=
  let s := s.asOf
  match s.tensorOf h.tenant h.tid with
  | none => ⟨List.replicate 256 0, 0, []⟩
  | some t => s.composeGranule t (h.va + off) (h.key off) (t.included h.home.toNat s.core.pcore.toNat s.core.observed)

/-- What a read of one granule by the core is composed from, kept for a replay (R264). -/
def State.keepRead (s : State) (h : Handle) (off : Nat) : ReadKept :=
  let s := s.asOf
  match s.tensorOf h.tenant h.tid with
  | none => ⟨none, 0, [], [], s.ctime⟩
  | some t =>
      let chain := t.chainOver (h.va + off)
      let key := h.key off
      ⟨some { t with chain := chain.filter (t.included h.home.toNat s.core.pcore.toNat s.core.observed) }, chain.length
        , (List.range 256).map fun x => s.gbyte (key + x), (List.range 4).filter fun l => s.gbad (key + 64 * l), s.ctime⟩

/-- The granule composed anew from what its first read was composed from. -/
def ReadKept.granule (k : ReadKept) (va : Nat) : Granule :=
  match k.tensor with
  | none => ⟨List.replicate 256 0, 0, []⟩
  | some t => t.compose va t.chain k.depth (fun x => k.base.getD x 0) fun l => k.bad.contains l

/-! ## Slots of the drawer links (R216, R217) -/

/-- An entry as the table holds it: the fields that its KIND has, and zero elsewhere (R8, R216; the fields of an idle and of a
management slot as zero DEDUCED, unsafe, log entry 66). -/
def slotStored (e : BitVec 32) : BitVec 32 :=
  if field e 30 2 = 1 then e &&& 0xFFFC0000
  else if field e 30 2 = 2 then e &&& 0xFC0C0000
  else e &&& 0xC0000000

/-- The entry of a slot: a table has 16 groups of 1,024 entries, idle where none is listed (R216). -/
def slotIn (slots : List (Nat × Nat × BitVec 32)) (group slot : Nat) : BitVec 32 :=
  if group < 16 && slot < Config.frameSlots then
    slotStored (((slots.find? fun x => x.1 = group && x.2.1 = slot).map (·.2.2)).getD 0)
  else 0

/-- The slots of a group that tables list, once each, in rising order. -/
def listedSlots (slots : List (Nat × Nat × BitVec 32)) (group : Nat) : List Nat :=
  sortNat ((slots.filter fun x => x.1 = group).map (·.2.1)).eraseDups

/-- The write slots of a group that the slice of a die owns for a tenant, in rising order (R216). -/
def writeSlots (slots : List (Nat × Nat × BitVec 32)) (group die : Nat) (tenant : BitVec 4) : List Nat :=
  (listedSlots slots group).filter fun n =>
    let e := slotIn slots group n
    field e 30 2 = 2 && field e 26 4 = tenant && fieldN e 18 2 = die

/-- The slot that passes on a trunk cycle, counted from the start of the frames; slots run in real time, at 304 thirty-fifths of
a cycle each (R17, R216). -/
def State.slotNow (s : State) : Nat := (35 * (s.trunk + s.bubble) + Config.slotPhase) / 304

/-- The `j`-th owned slot that comes after slot `now`, counted as it is. A command whose core has lost its slots of the group since
issue, so that none is owned, takes slot 0 of a following frame, with a GMAX of 0xFFFF (DESIGN CHOICE, unsafe, log entry 66). -/
def slotAfter (own : List Nat) (now j : Nat) : Nat :=
  let frame := now / Config.frameSlots
  let later := own.filter fun x => now % Config.frameSlots < x
  if j < later.length then frame * Config.frameSlots + later.getD j 0
  else
    let k := j - later.length
    (frame + 1 + k / own.length) * Config.frameSlots + own.getD (k % own.length) 0

/-- The trunk cycle by which slot `n` has passed whole. -/
def State.slotEnd (s : State) (n : Nat) : Nat := (304 * (n + 1) - Config.slotPhase + 34) / 35 - s.bubble

/-! ## Sealing and folding (R238, R239) -/

/-- The shape of a nest's launch: NDIE times NCORE (R328, R331). -/
def Nest.ncore (n : Nest) : Nat := fieldN (n.words.getD 3 0) 0 6
def Nest.ndie (n : Nest) : Nat := fieldN (n.words.getD 3 0) 8 3
def Nest.width (n : Nest) : Nat := n.ncore * n.ndie
def Nest.hdr (n : Nest) : Word := n.words.getD 0 0
def Nest.nlv (n : Nest) : Nat := fieldN n.hdr 53 3
def Nest.prio (n : Nest) : Nat := fieldN n.hdr 46 3
def Nest.level (n : Nest) (i : Nat) : Word := n.words.getD (4 + i) 0
def Nest.levelKind (n : Nest) (i : Nat) : Nat := fieldN (n.level i) 62 2
def Nest.levelCount (n : Nest) (i : Nat) : Nat := fieldN (n.level i) 0 32
def Nest.permAt (n : Nest) (i : Nat) : Nat := fieldN (n.words.getD 10 0) (3 * i) 3

/-- Number of walk points: combinations of the temporal levels (R331). -/
def Nest.walks (n : Nest) : Nat :=
  (List.range n.nlv).foldl (fun w i => if n.levelKind i = 0 then w * n.levelCount i else w) 1

/-- The least task index of a launch that has not retired, counting unreached walk points and, while the launch is not
complete, the part of its child range that no child holds yet (R238, R338). -/
def Launch.firstOpen (l : Launch) : Option Nat :=
  if l.completed then none
  else
    let ts := (l.tasks.filter fun t => t.state ≠ .retired).map (·.ix)
    let ws := (l.nests.filter fun n => n.reached < n.walks).map fun n => n.ixbase + n.reached * n.width
    let free := (l.nests.filter fun n => n.child.isSome).foldl
      (fun x n => max x (n.ixbase + n.walks * n.width)) l.childBase
    let cs := if free < l.childBase + l.cspan then [free] else []
    (ts ++ ws ++ cs).min?

/-- The seal line of a tenant on this device, as the least index that is not sealed (R238). -/
def State.sealBound (s : State) (tenant : BitVec 4) : Nat :=
  let top := ((s.tenants.find? fun x => x.id = tenant).map (·.ixCounter)).getD 0
  ((s.launches.filter fun l => l.tenant = tenant).filterMap Launch.firstOpen).foldl min top

/-- The seal bound of a tensor: with REMOTE, the least of the partition's (R238). A member that has not reported yet bounds nothing
(DEDUCED, unsafe, log entry 83). -/
def State.tensorSeal (s : State) (t : Tensor) : Nat :=
  let own := s.sealBound t.tenant
  if t.desc.remote then
    ((s.tenants.filter fun x => x.id = t.tenant).flatMap fun x => x.peerSeals.map (·.bound)).foldl min own
  else own

def State.isSealed (s : State) (t : Tensor) (name : Word) : Bool := nameTask name < s.tensorSeal t

/-- The start floors of a tenant's running tasks (R235, R239). -/
def State.runningFloors (s : State) (tenant : BitVec 4) : List Nat :=
  (s.launches.filter fun l => l.tenant = tenant).flatMap fun l =>
    (l.tasks.filter fun t => match t.state with | .running _ => true | _ => false).map (·.sf)

/-- The start floors of the tasks of a tenant and origin that run: this device's own, or the least that the origin's crown
scheduler reports (R239). -/
def State.floorsOf (s : State) (tenant : BitVec 4) (origin : Nat) : List Nat :=
  if origin = s.origin.toNat then s.runningFloors tenant
  else (s.tenants.filter fun x => x.id = tenant).flatMap fun x =>
    x.peerSeals.filterMap fun p => if p.origin.toNat = origin then p.floor else none

/-- R239 without the snapshot cursor. -/
def State.foldableBut (s : State) (t : Tensor) (r : PatchRec) : Bool :=
  s.isSealed t r.name && r.rs.any fun rs => (s.floorsOf t.tenant (nameOrigin r.name)).all (rs ≤ ·)

/-- A snapshot cursor lies at or before the granule (R260). -/
def Tensor.snapped (t : Tensor) (g : Nat) : Bool := t.snap.any (· ≤ g)

/-- The mapped address of a granule's base, unless its link group is down (R375). -/
def State.baseKey (s : State) (t : Tensor) (g : Nat) : Option Nat :=
  match s.pageAt t.tenant (t.baseva + 256 * g) with
  | none => none
  | some p =>
      let phys := p.phys + (t.baseva + 256 * g - p.va)
      if p.tier = 2 && s.groupsDown.contains (phys / 4096 % 16) then none else some (pageKey p (t.baseva + 256 * g))

/-- A granule as a read that no core makes sees it: by the crown scheduler, an application core or management, with every
accepted patch (R265). -/
def State.plainGranule (s : State) (t : Tensor) (g : Nat) : Option Granule :=
  (s.baseKey t g).map fun key => s.composeGranule t (t.baseva + 256 * g) key fun r =>
    !nameInv r.name || t.chain.any fun p => p.name = r.name &&& ~~~1#64

/-- The foldable prefix of a granule (R239). One whose base no page maps, since its mapping has been revoked or never was, folds nothing, as
where its link group is down (R375; DEDUCED, unsafe, log entry 93). -/
def State.foldablePrefix (s : State) (t : Tensor) (g : Nat) : List PatchRec :=
  if t.snapped g || (s.baseKey t g).isNone then [] else (t.chainAt g).takeWhile (s.foldableBut t)

/-- Bytes written to memory behind a page: the unit is dead no more, and lines wholly written lose their poison. -/
def State.gwrite (s : State) (key : Nat) (bs : List Byte) : State :=
  { s with gmem := s.gmem.write key bs
           dead := s.dead.filter fun d => d ≠ (key / 2 ^ 57, key % 2 ^ 57 / 4096)
           gpoison := s.gpoison.filter fun l => !(key ≤ 64 * l && 64 * l + 64 ≤ key + bs.length) }

/-- The foldable prefix of one granule of a tensor is folded (R239, R367). -/
def State.foldNow (s : State) (t : Tensor) (g : Nat) : State :=
  match s.foldablePrefix t g, s.baseKey t g with
  | [], _ => s
  | _, none => s
  | p :: ps, some key =>
      let names := (p :: ps).map (·.name)
      let out := s.composeGranule t (t.baseva + 256 * g) key fun r => names.contains r.name
      let s1 := s.gwrite key out.bytes
      let chain := (t.chain.map fun r => if names.contains r.name then { r with folded := g :: r.folded } else r).filter
        fun r => (t.granulesOf r).any fun x => !r.folded.contains x
      let top := names.getLastD 0
      let t1 := { t with chain := chain, foldLine := (g, top) :: t.foldLine.filter (·.1 ≠ g) }
      { (s1.setTensor t1) with gpoison := out.bad.map (key / 64 + ·) ++ s1.gpoison }

/-- The 4 KiB block of the drawer that a granule's base lies in, where it does. -/
def State.drawerBlock (s : State) (t : Tensor) (g : Nat) : Option Nat :=
  (s.pageAt t.tenant (t.baseva + 256 * g)).bind fun p =>
    if p.tier = 2 then some ((p.phys + (t.baseva + 256 * g - p.va)) / 4096) else none

/-- A granule is to be folded with a write slot that has not passed. -/
def State.foldPending (s : State) (t : Tensor) (g : Nat) : Bool :=
  s.slotWrites.any fun w => w.tenant = t.tenant && w.tid = t.desc.tid && w.grans.contains g

/-- The next write slot of a group that a slice owns for a tenant and that no write has taken (R216). -/
def State.nextWriteSlot (s : State) (tenant : BitVec 4) (die group : Nat) : Option Nat :=
  let own := writeSlots s.slots group die tenant
  let taken := (s.slotWrites.filter fun w => w.tenant = tenant && w.die = die && w.block % 16 = group).map (·.slot)
  if own = [] then none else some (slotAfter own (taken.foldl max s.slotNow) 0)

/-- A granule is to be folded with the write slot that its block has taken and that has not come yet, else with the next one; where the
slice owns none of the group, it stays as it is (R216, R239, R255; DESIGN CHOICE, unsafe, log entry 66). -/
def State.writeBack (s : State) (t : Tensor) (g block : Nat) : State :=
  let mine := fun (w : SlotWrite) => w.tenant = t.tenant && w.tid = t.desc.tid && w.block = block && s.slotNow < w.slot
  if s.slotWrites.any mine then
    { s with slotWrites := s.slotWrites.map fun w => if mine w then { w with grans := w.grans ++ [g] } else w }
  else
    match s.nextWriteSlot t.tenant (s.homeOf t) (block % 16) with
    | some n => { s with slotWrites := s.slotWrites ++ [⟨t.tenant, t.desc.tid, [g], block, s.homeOf t, n⟩] }
    | none => s

/-- Fold one granule of a tensor, where it has a foldable prefix: at once, or with a write slot when the base lies in a drawer (R239,
R255). -/
def State.foldGranule (s : State) (t : Tensor) (g : Nat) : State :=
  if s.foldablePrefix t g = [] || s.foldPending t g then s
  else match s.drawerBlock t g with
    | none => s.foldNow t g
    | some block => s.writeBack t g block

/-- A write slot has passed, and its acknowledgement has come L slots later: the granules of its block are folded. Where the group is
retraining, the write is made again in the next owned slot (R216, R219; DESIGN CHOICE, unsafe, log entry 66). -/
def State.passWrite (s : State) (w : SlotWrite) : State :=
  let s1 := { s with slotWrites := s.slotWrites.erase w }
  if s.retraining.contains (w.block % 16) then
    match s1.nextWriteSlot w.tenant w.die (w.block % 16) with
    | some n => { s1 with slotWrites := s1.slotWrites ++ [{ w with slot := n }] }
    | none => s1
  else w.grans.foldl (fun s g => match s.tensorOf w.tenant w.tid with | some t => s.foldNow t g | none => s) s1

/-- The writes whose acknowledgements have come by this trunk cycle. -/
def State.passWrites (s : State) : State :=
  match s.slotWrites.filter fun w => s.slotEnd (w.slot + s.drawerL) ≤ s.trunk with
  | [] => s
  | ws => s.changing false fun s => ws.foldl State.passWrite s

/-- Fold several granules of one tensor. -/
def State.foldGranules (s : State) (tenant : BitVec 4) (tid : BitVec 24) (gs : List Nat) : State :=
  gs.foldl (fun s g => match s.tensorOf tenant tid with | some t => s.foldGranule t g | none => s) s

/-! ## Capacity (R242) -/

/-- Records and data bytes that a tenant holds on the slice of a die. -/
def State.sliceUse (s : State) (tenant : BitVec 4) (die : Nat) : Nat × Nat :=
  (s.tensors.filter fun t => t.tenant = tenant && s.homeOf t = die).foldl
    (fun x t => (x.1 + t.chain.length, x.2 + (t.chain.map PatchRec.dataBytes).foldl (· + ·) 0)) (0, 0)

/-- Which quota one more record would pass: 1 records, 2 data, 0 neither. The quotas together lie within the slice
(`capQuotas`). -/
def State.overQuota (s : State) (tenant : BitVec 4) (die : Nat) (r : PatchRec) : Nat :=
  match s.tenants.find? fun x => x.id = tenant with
  | none => 0
  | some x =>
      let u := s.sliceUse tenant die
      if u.1 + 1 > x.recordQuota then 1 else if u.2 + r.dataBytes > x.dataQuota then 2 else 0

/-- Areas cut so that they lie together within a die's canopy SRAM beside the rollback areas of its 48 cores, the patch data area
within 256 MiB: the patch data area is served first, then the bases, then the cache. The journal ring takes nothing of canopy SRAM, nor
checkpoint shards and the spill queue of LPDDR-6 (R13, R341, R346, R372, R378; DESIGN CHOICE, unsafe, log entry 67). -/
def fitArea (a : CanopyArea) (rollback : Nat) : CanopyArea :=
  let room := Config.canopyBytes - 48 * rollback
  let patch := min (min a.patch Config.patchAreaMost) room
  let base := min a.base (room - patch)
  ⟨base, patch, min a.cache (room - patch - base)⟩

/-- The areas of the four compute dies as a record gives them; a die that it leaves out has none. -/
def canopyAreas (dies : List CanopyArea) (rollback : Nat) : Vector CanopyArea 4 :=
  Vector.ofFn fun d => fitArea ((dies[d.val]?).getD ⟨0, 0, 0⟩) rollback

/-- Numbers taken from limits: what each may have, and what it leaves. -/
def capped (xs limits : List Nat) : List Nat := (limits.zipIdx).map fun x => min (xs.getD x.2 0) x.1
def remaining (xs limits : List Nat) : List Nat := (limits.zipIdx).map fun x => x.1 - xs.getD x.2 0

/-- The tenants' quotas cut so that together they lie within a slice's records, its patch data area, and each die's units of cache
area: an earlier tenant's first (R221, R242, R262; DESIGN CHOICE, unsafe, log entry 67). -/
def capQuotas : List Tenant → Nat → Nat → List Nat → List Tenant
  | [], _, _, _ => []
  | t :: ts, records, data, cache =>
      { t with recordQuota := min t.recordQuota records, dataQuota := min t.dataQuota data
               cacheQuota := capped t.cacheQuota cache } ::
        capQuotas ts (records - t.recordQuota) (data - t.dataQuota) (remaining t.cacheQuota cache)

/-- The least patch data area of the four dies, within which the quotas of a slice lie, and each die's units of cache area. -/
def State.leastPatchArea (s : State) : Nat := (s.areas.toList.map (·.patch)).foldl min Config.patchAreaMost
def State.cacheUnits (s : State) : List Nat := s.areas.toList.map fun a => a.cache / 4096

/-- The granules of a tenant's tensors on a slice that hold records, in the order of folding: tensor by tensor as they were installed,
and in each the lowest granule first (R242; the order among tensors DESIGN CHOICE, unsafe, log entry 82). -/
def State.sliceGranules (s : State) (tenant : BitVec 4) (die : Nat) : List (BitVec 24 × Nat) :=
  (s.tensors.filter fun t => t.tenant = tenant && s.homeOf t = die).flatMap fun t =>
    (sortNat (t.chain.flatMap t.granulesOf).eraseDups).map fun g => (t.desc.tid, g)

/-- Folds of a tenant on a slice wait for write slots. -/
def State.writesPending (s : State) (tenant : BitVec 4) (die : Nat) : Bool :=
  s.slotWrites.any fun w => w.tenant = tenant && w.die = die

/-- Folds for room until a record fits (R242); one that waits for its write slot is waited for before the next. -/
def State.foldForRoom (s : State) (tenant : BitVec 4) (die : Nat) (r : PatchRec) : List (BitVec 24 × Nat) → State
  | [] => s
  | (tid, g) :: gs =>
      if s.overQuota tenant die r = 0 || s.writesPending tenant die then s
      else (s.foldGranules tenant tid [g]).foldForRoom tenant die r gs

/-! ## A record at its slice (R236, R240 to R243) -/

/-- What a slice does with an operation: it answers, or holds it with the second name of a stall's record. -/
inductive SliceRes where
  | answer (s : State) (a : Answer)
  | hold (s : State) (st : OpState) (x1 : Word)

/-- The reason for which two records conflict, 0 when they do not (R236). -/
def Tensor.conflictReason (t : Tensor) (q p : PatchRec) : Nat :=
  if !t.share p q || kindsCommute p.kind q.kind || orderedRecs p q then 0
  else if PKind.overwrites p.kind && PKind.overwrites q.kind then (if t.desc.lww then 0 else 1)
  else 2

/-- The lowest-named record with which `q` conflicts (R236). -/
def Tensor.conflict (t : Tensor) (q : PatchRec) : Option (Nat × Word) :=
  t.chain.findSome? fun p => match t.conflictReason q p with | 0 => none | n => some (n, p.name)

/-- The first granule of a record whose fold line is at or above its name (R240). -/
def Tensor.late (t : Tensor) (q : PatchRec) : Option Word :=
  (t.granulesOf q).findSome? fun g =>
    (t.foldLine.find? fun x => x.1 = g && q.name.ule x.2).map (·.2)

/-- Room in the chain and in the quota (R241, R242), then the record joins the chain; while a fold waits for its write slot the record is
held and nothing is raised. Where every record of a full granule is foldable and its base cannot be written, X1 names none and is 0
(DESIGN CHOICE, unsafe, log entry 94). -/
def State.takePatch (s : State) (tenant : BitVec 4) (die : Nat) (q : PatchRec) : SliceRes :=
  match s.tensorOf tenant q.tid with
  | none => .answer s .accepted
  | some t =>
      let full := (t.granulesOf q).filter fun g => (t.chainAt g).length ≥ 64
      let s1 := s.foldGranules tenant q.tid full
      let t1 := (s1.tensorOf tenant q.tid).getD t
      match full.find? fun g => (t1.chainAt g).length ≥ 64 with
      | some g =>
          if s1.foldPending t1 g then .hold s1 .heldWrite 0
          else if t1.snapped g && (t1.chainAt g).head?.any (s1.foldableBut t1) then .hold s1 .heldSnap 0
          else .hold s1 .heldDepth (((t1.chainAt g).find? fun r => !s1.foldableBut t1 r).map (·.name) |>.getD 0)
      | none =>
          let s2 := s1.foldForRoom tenant die q (s1.sliceGranules tenant die)
          match s2.overQuota tenant die q with
          | 0 =>
              let t2 := (s2.tensorOf tenant q.tid).getD t1
              .answer (s2.setTensor { t2 with chain := insertRec q t2.chain }) .accepted
          | n => .hold s2 (if s2.writesPending tenant die then .heldWrite else if n = 1 then .heldRecords else .heldData) 0

/-- The task that a name belongs to, if it is one of this device's, is marked for its CIR entry, and its launch as poisoned, for a
replaced patch that another core had read (R374). -/
def State.markLost (s : State) (tenant : BitVec 4) (name : Word) : State :=
  let owns := fun (t : Task) => t.ix = nameTask name
  let mark := fun (l : Launch) =>
    if l.tenant = tenant && nameOrigin name = s.origin.toNat && l.tasks.any owns then
      { l with poisoned := true, tasks := l.tasks.map fun t => if owns t then { t with lost := true } else t }
    else l
  { s with launches := s.launches.map mark }

/-- A record that arrives: the replay check, the late check, the conflict check, depth and capacity (R250). -/
def State.arriveRecord (s : State) (tenant : BitVec 4) (die : Nat) (replay : Bool) (q : PatchRec) : SliceRes :=
  match s.tensorOf tenant q.tid with
  | none => .answer s .accepted
  | some t =>
      match t.chain.find? fun p => p.name = q.name with
      | some p =>
          if p.digest = q.digest then .answer s .accepted
          else if replay then
            let s1 := s.setTensor { t with chain := t.chain.map fun x =>
              if x.name = q.name then { q with folded := p.folded, rs := p.rs, sf := p.sf } else x }
            .answer (if Config.readElsewhere s1.free then s1.draw.2.markLost tenant q.name else s1.draw.2) .accepted
          else .answer s (.refused 0x55 1 q.name 0)
      | none =>
          match t.late q with
          | some line => .answer s (.refused 0x52 1 q.name line)
          | none =>
              match t.conflict q with
              | some (reason, name) => .answer s (.refused 0x50 reason q.name name)
              | none => s.takePatch tenant die q

end Sys2Proof.Machine
end

