-- ==== Sys2Proof/Machine/Copy.lean ====
section
/-! DEFINITION. Handles (R201 to R207), the copy engine (R209 to R215, R395), the drawer links (R216 to R220) and
residency in canopy SRAM (R221 to R226). -/

namespace Sys2Proof.Machine

/-! ## Keys of replayed effects (R371) -/

/-- The next index within the phase, and the state after taking it. -/
def State.nextKey (s : State) : (Nat × Nat) × State :=
  ((s.core.phase, s.core.phaseIdx), { s with core := { s.core with phaseIdx := s.core.phaseIdx + 1 } })

/-- The answer that an effect of a phase gave the first time, and its core cycle. -/
def State.logged (s : State) (key : Nat × Nat) : Option (Word × Nat) := (s.log.find? fun x => x.1 = key).map (·.2)

def State.addLog (s : State) (key : Nat × Nat) (v : Word) : State := { s with log := (key, v, s.ctime) :: s.log }

/-- The core's context and the saved ones change alike. -/
def State.mapCores (s : State) (f : Core → Core) : State :=
  { s with core := f s.core, saved := s.saved.map fun x => { x with core := f x.core } }

/-! ## Handle checks (R206) -/

def handleInvalid (n : BitVec 5) : BitVec 32 := 0#4 ++ n ++ 0#23
def permission (kind : Nat) (n : BitVec 5) (h : Handle) : BitVec 32 := BitVec.ofNat 4 kind ++ n ++ h.tier ++ bit1 h.pr ++ 0#19
def handleBounds (reason : Nat) (n : BitVec 5) (off : Nat) : BitVec 32 :=
  BitVec.ofNat 4 reason ++ n ++ BitVec.ofNat 23 (if reason = 4 then 0 else off / 4096)

/-- A fault of a check: code, engine, status. -/
abbrev Offence := Option (Nat × Nat × BitVec 32)

/-- The lowest of the offending offsets, as HANDLE BOUNDS with a reason. -/
def boundsFault (reason : Nat) (n : BitVec 5) (offs : List Nat) : Offence :=
  offs.min?.map fun o => (0x41, 11, handleBounds reason n o)

/-- The first of two checks that fails. -/
def Offence.orElse (a b : Offence) : Offence := match a with | some x => some x | none => b

/-- Rows of bytes that leave the page: the first offset beyond it. -/
def beyond (page : Nat) (rows : List (Nat × Nat)) : List Nat :=
  rows.filterMap fun r => if r.1 + r.2 > page then some (max r.1 page) else none

/-- A 4 KiB unit of an LPDDR-6 page is resident (R221). -/
def State.resident (s : State) (h : Handle) (off : Nat) : Bool :=
  s.asOf.cache.any fun u => u.home = h.home && u.tenant = h.tenant && u.unit = (h.phys + off) / 4096

/-- The 4 KiB blocks that rows of bytes touch, row by row, as page offsets: each row touches a block once, so a block that two rows
touch counts twice (R218; DEDUCED, unsafe, log entry 66). -/
def blocks (h : Handle) (rows : List (Nat × Nat)) : List Nat :=
  rows.flatMap fun r =>
    if r.2 = 0 then []
    else
      let lo := (h.phys + r.1) / 4096
      (List.range ((h.phys + r.1 + r.2 - 1) / 4096 - lo + 1)).map fun i => max r.1 ((lo + i) * 4096 - h.phys)

/-- Validity, permission and bounds of a copy, with the reasons in the order of R206. -/
def State.copyHandleFault (s : State) (n : BitVec 5) (rows : List (Nat × Nat)) : Offence :=
  let h := s.core.readH n
  if !h.valid then some (0x40, 11, handleInvalid n)
  else if h.tier = 3 then some (0x43, 11, permission 5 n h)
  else if !h.pr then some (0x43, 11, permission 1 n h)
  else
    ((boundsFault 2 n ((rows.map (·.1)).filter fun o => o % 64 ≠ 0)).orElse
      (boundsFault 1 n (beyond (pageBytes h.psz) rows))).orElse
      (if h.tier = 1 then boundsFault 3 n ((blocks h rows).filter fun o => !s.resident h o) else none)

/-! ## Drawer slots (R216 to R220) -/

def State.slotEntry (s : State) (group slot : Nat) : BitVec 32 := slotIn s.asOf.slots group slot

/-- The read slots of a group that name a core, in rising order (R216). -/
def coreSlots (slots : List (Nat × Nat × BitVec 32)) (group core : Nat) : List Nat :=
  (listedSlots slots group).filter fun n =>
    field (slotIn slots group n) 30 2 = 1 && fieldN (slotIn slots group n) 18 8 = core

/-- Those of them that a tenant owns there: an idle slot is never lent to another tenant (R217; DEDUCED, unsafe, log
entry 66). -/
def readSlots (slots : List (Nat × Nat × BitVec 32)) (group core : Nat) (tenant : BitVec 4) : List Nat :=
  (coreSlots slots group core).filter fun n => field (slotIn slots group n) 26 4 = tenant

/-- The slots of a group that the context on the core owns. -/
def State.ownSlots (s : State) (group : Nat) : List Nat := readSlots s.asOf.slots group s.core.pcore.toNat s.core.tenant

/-- The inbound slot that the entry of an outbound slot governs (R216). -/
def State.inboundSlot (s : State) (slot : Nat) : Nat := (slot + s.drawerL) % Config.frameSlots

/-- GMAX: the largest cyclic distance between consecutive owned slots, 0xFFFF for none (R217, R220). -/
def gmaxOf : List Nat → Nat
  | [] => 0xFFFF
  | x :: xs =>
      let r := xs.foldl (fun (a : Nat × Nat) y => (max a.1 (y - a.2), y)) (0, x)
      max r.1 (x + Config.frameSlots - r.2)

/-- Owners of read slots: core, and tenant. -/
def slotOwners (slots : List (Nat × Nat × BitVec 32)) : List (Nat × BitVec 4) :=
  ((slots.filter fun x => field (slotStored x.2.2) 30 2 = 1#2).map fun x => (fieldN x.2.2 18 8, field x.2.2 26 4)).eraseDups

/-- No core that owns read slots of a group has a GMAX below 32 there (R217). -/
def slotsAllowed (slots : List (Nat × Nat × BitVec 32)) : Bool :=
  (slotOwners slots).all fun o => (List.range 16).all fun g => 32 ≤ gmaxOf (coreSlots slots g o.1)

/-- A table that is refused leaves the tables as they are (R217). -/
def State.setSlots (s : State) (slots : List (Nat × Nat × BitVec 32)) : State :=
  if slotsAllowed slots then { s with slots := slots } else s

/-- A core other than the modelled one runs a task. -/
def State.otherRuns (s : State) (core : Nat) : Bool :=
  core ≠ s.core.pcore.toNat && s.launches.any fun l => l.tasks.any fun t => t.state = .running core

/-- The slots of cores on which a context runs stay as they are (R217). -/
def State.slotsKeep (s : State) (slots : List (Nat × Nat × BitVec 32)) : Bool :=
  ((slotOwners s.slots ++ slotOwners slots).filter fun o => s.otherRuns o.1).all fun o =>
    (List.range 16).all fun g => readSlots slots g o.1 o.2 = readSlots s.slots g o.1 o.2

/-- The slots of two owners, a core with a tenant each, are in proportion to the weights of the tenants, to within one slot of each
(R217; the rounding DESIGN CHOICE, unsafe, log entry 66). -/
def State.slotsFair (s : State) (slots : List (Nat × Nat × BitVec 32)) : Bool :=
  let count := fun (o : Nat × BitVec 4) => ((List.range 16).map fun g => (readSlots slots g o.1 o.2).length).foldl (· + ·) 0
  let weight := fun (o : Nat × BitVec 4) => ((s.tenants.find? fun t => t.id = o.2).map (·.weight)).getD 1
  (slotOwners slots).all fun a => (slotOwners slots).all fun b =>
    count a * weight b < count b * weight a + weight a + weight b

/-- A table without the read slots of groups that are down: a core has none there (R375). -/
def State.upSlots (s : State) (slots : List (Nat × Nat × BitVec 32)) : List (Nat × Nat × BitVec 32) :=
  slots.filter fun x => !(s.groupsDown.contains x.1 && field x.2.2 30 2 = 1#2)

/-- The crown scheduler may change the tables while no context runs on the core, in proportion to the weights (R217); a group that is down
gets no read slot again (R375). -/
def State.assignSlots (s : State) : State :=
  let d := s.draw
  match (Config.newSlots d.1 s.slots).map s.upSlots with
  | some slots => if s.slotsKeep slots && s.slotsFair slots then d.2.setSlots slots else d.2
  | none => d.2

/-- The link group of a byte of a drawer page (R216). -/
def Handle.group (h : Handle) (off : Nat) : Nat := (h.phys + off) / 4096 % 16

/-- SLOT TABLE: the lowest group that a drawer copy-in needs and in which the core owns no slot (R219). -/
def State.slotFault (s : State) (h : Handle) (rows : List (Nat × Nat)) : Offence :=
  if h.tier ≠ 2 then none
  else (((blocks h rows).map h.group).filter fun g => s.ownSlots g = []).min?.map fun g => (0x61, 10, BitVec.ofNat 4 g ++ 0#28)

/-! ## Copy-ins (R210 to R215, R395) -/

/-- What a copy-in reads and writes: rows of bytes in the page, the list it reads, its destination and line count. -/
structure CopyPlan where
  n : BitVec 5
  rows : List (Nat × Nat)
  list : Option (Nat × Nat)
  dest : Nat
  region : BitVec 4
  tag : BitVec 16
  depth : Nat
  deriving DecidableEq, Repr

/-- Lines written: N of R209. -/
def CopyPlan.count (p : CopyPlan) : Nat := (p.rows.map fun r => r.2 / 64).foldl (· + ·) 0

/-- Page offsets of the lines, in destination order. -/
def CopyPlan.offsets (p : CopyPlan) : List Nat :=
  p.rows.flatMap fun r => (List.range (r.2 / 64)).map fun i => r.1 + 64 * i

/-- LOCAL BOUNDS of the list and then of the destination (R176, R211). The lock set is one access of the schedule: a byte of it
outside local store is reported before a misaligned destination (DEDUCED, unsafe, log entry 57). -/
def CopyPlan.boundsFault (p : CopyPlan) (t : Nat) : Offence :=
  let list := match p.list with | some (a, k) => [⟨t, 0, false, (a : Int), k, 4, false⟩] | none => []
  (boundsOf (list ++ [⟨t, 0, true, (p.dest : Int), 64 * p.count, 64, false⟩])).map fun o =>
    (0x14, 10, boundsStatus o.2.1 0 o.2.2)

/-- The region of R212 must hold the whole lock set, in its back half when it is double-buffered. HALF names the front half where the
lock set touches it, and is 0 where the lock set only leaves the back half to the outside (DEDUCED, unsafe, log entry 57). -/
def Core.copyRegionFault (c : Core) (p : CopyPlan) : Offence :=
  match c.regions[p.region.toNat]'(by omega) with
  | none => none
  | some r =>
      let base := if r.db then r.base + (1 - r.front) * (r.size / 2) else r.base
      let size := if r.db then r.size / 2 else r.size
      if base ≤ p.dest && p.dest + 64 * p.count ≤ base + size then none
      else
        let half := if r.db && (r.halves p.dest (64 * p.count)).contains r.front then r.front else 0
        some (0x13, 10, overlapStatus 1 p.region.toNat 0 0 true half)

/-- PHASE OVERLAP for the region of R212, then for the reader and the writer sets. -/
def Core.copyPhaseFault (c : Core) (p : CopyPlan) : Offence :=
  let use := fun (w : Bool) (a n : Nat) => (c.refusal 0 w a n).map fun x => (0x13, 10, overlapStatus 1 x.1 0 0 w x.2)
  ((c.copyRegionFault p).orElse (match p.list with | some (a, k) => use false a k | none => none)).orElse
    (use true p.dest (64 * p.count))

/-- The checks of R395, in order. -/
def State.copyFault (s : State) (p : CopyPlan) (t : Nat) : Offence :=
  (((s.copyHandleFault p.n p.rows).orElse (p.boundsFault t)).orElse (s.slotFault (s.core.readH p.n) p.rows)).orElse
    (s.core.copyPhaseFault p)

/-- A half that the lock set touches was front in the phase that ended less than 600 core cycles ago (R181). -/
def Core.copySwapHold (c : Core) (p : CopyPlan) (t : Nat) : Bool :=
  c.fronts.any fun f => t < f.1 + Config.finality && meets p.dest (64 * p.count) f.2.1 f.2.2

/-- The holds of R395; a full queue holds until its first command starts (DEDUCED, unsafe, log entry 51). -/
def Core.copyHolds (c : Core) (p : CopyPlan) (t : Nat) : Bool :=
  (c.copyQ.filter fun q => q.start.isNone).length ≥ 16 ||
    c.rangeLocked p.dest (64 * p.count) || c.rangeBusy t p.dest (64 * p.count) ||
    (match p.list with | some (a, k) => c.rangeLocked a k || c.rangeBusy t a k | none => false) || c.copySwapHold p t

/-- A granule of a command's page has a record in its chain. -/
def State.patched (s : State) (h : Handle) (offs : List Nat) : Bool :=
  offs.any fun o => (s.readGranule h (o / 256 * 256)).depth > 0

/-- The largest depth that a command has met (R213). -/
def CopyCmd.met (q : CopyCmd) : Nat := (q.grans.map fun g => match g.got with | some x => x.2.1 | none => 0).foldl max 0

/-- An earlier command whose request phase has no fixed length yet: a free-section copy-in from a patched source, also one that has not
started, since the length that its phase will have is not fixed either (R214; DEDUCED, unsafe, log entry 89). -/
def State.requestOpen (s : State) (t : Nat) : Bool :=
  s.core.copyQ.any fun q =>
    !q.joined && q.h.tier.toNat < 2 && q.reqEnd.all (t < ·) && (q.met > 0 || s.patched q.h (q.lines.map (·.2)))

/-- C without the depth term, from the start cycle on (R213, R218). -/
def State.copyBase (s : State) (q : CopyCmd) (t : Nat) : Nat :=
  let n := q.lines.length
  if q.h.tier = 2 then
    let gs := q.units.map (·.group)
    let per := (List.range 16).map fun g => gs.count g
    let j := per.foldl max 0
    let gmax := (gs.map fun g => gmaxOf (s.ownSlots g)).foldl max 0
    t + (304 * (j * gmax + s.drawerL + 1) + 34) / 35 + 16 * per.count j + 32
  else t + (if q.h.home.toNat = dieOf s.core.pcore.toNat then 64 else 160) + (n + 3) / 4

/-- The command of a copy-in that issues on `i.t`. -/
def CopyPlan.cmd (p : CopyPlan) (h : Handle) (i : Issue) (id : Nat) (key : Nat × Nat) : CopyCmd :=
  { id := id, h := h, lines := (p.offsets.zipIdx).map fun x => (p.dest / 64 + x.2, x.1)
    region := p.region, tag := p.tag, depth := p.depth, joined := i.joined, issued := i.t, start := none, base := 0
    reqEnd := none, complete := none, done := false, grans := []
    units := if h.tier = 2 then
        (blocks h p.rows).zipIdx.map fun x => ⟨x.2, x.1, h.group x.1, 0, 0, false, false, false⟩
      else []
    listBad := false, key := key, at_ := i.at_ }

/-- A copy-in: its checks on the first cycle and, where it was held, again on the cycle on which the last hold ends; its holds;
and its entry into the queue with its lock set (R395). -/
def copyIn (p : CopyPlan) (i : Issue) (s : State) : Res :=
  let held : Bool := s.core.copyHolds p i.t || (i.joined && s.requestOpen i.t)
  if i.retry && held then .hold
  else match s.copyFault p i.t with
  | some (code, eng, st) => .fault code eng st 0 0
  | none =>
      if held then .hold
      else
        s.touching (unitsOf .ls p.dest (64 * p.count)) fun s =>
          let k := s.nextKey
          let bad := p.list.any fun l => (List.range l.2).any fun j => s.core.badByte .ls (l.1 + j)
          let cmd := { (p.cmd (s.core.readH p.n) i s.core.seq k.1) with listBad := bad }
          .ok { k.2 with queueLog := k.1 :: k.2.queueLog, core := { k.2.core with copyQ := k.2.core.copyQ ++ [cmd] } }

def execCpin (hd : Head) (o : CopyOps) (s : State) :=
  runWord 0x90 0 .noShadow hd (fun i s =>
    copyIn ⟨o.h, [((s.readG i o.goff).toNat, 64 * o.count.toNat)], none, (s.readA i o.a).toNat, o.region, o.tag,
      o.depth.toNat⟩ i s) s

def execCpin2 (hd : Head) (o : CopyOps) (pitch : BitVec 12) (rowlines1 : BitVec 8) (s : State) :=
  runWord 0x91 0 .noShadow hd (fun i s =>
    let rows := (List.range o.count.toNat).map fun r =>
      ((s.readG i o.goff).toNat + r * 64 * pitch.toNat, 64 * (rowlines1.toNat + 1))
    copyIn ⟨o.h, rows, none, (s.readA i o.a).toNat, o.region, o.tag, o.depth.toNat⟩ i s) s

/-- The GATHER list as local store holds it on the issue cycle, where a poisoned line reads as zeros (R211, R367). An entry outside
local store, whose LOCAL BOUNDS is raised only after the handle checks, reads as zero for those checks (DEDUCED, unsafe, log entry
57). -/
def State.gatherList (s : State) (a k : Nat) : List Nat :=
  (List.range k).map fun r => ofBytes (s.core.readMem .ls cirPX (a + 4 * r) 4).1

def execGather (hd : Head) (o : CopyOps) (list : BitVec 4) (rowlines1 : BitVec 8) (s : State) :=
  runWord 0x92 0 .noShadow hd (fun i s =>
    let a := (s.readA i list).toNat
    let rows := (s.gatherList a o.count.toNat).map fun e =>
      ((s.readG i o.goff).toNat + 64 * e, 64 * (rowlines1.toNat + 1))
    copyIn ⟨o.h, rows, some (a, 4 * o.count.toNat), (s.readA i o.a).toNat, o.region, o.tag, o.depth.toNat⟩ i s) s

/-! ## A command from its start to its completion -/

/-- One command changes. -/
def Core.setCopy (c : Core) (q : CopyCmd) : Core := { c with copyQ := c.copyQ.map fun x => if x.id = q.id then q else x }

/-- The command that may start on core cycle `t` (R209). -/
def Core.copyStarts (c : Core) (t : Nat) : Option CopyCmd :=
  match c.copyQ.find? fun q => q.start.isNone with
  | none => none
  | some q => if q.issued < t && c.copyQ.all (fun x => x.start.isNone || x.reqEnd.any (· ≤ t)) then some q else none

/-- The granules of a command, each with its read point (R264). -/
def CopyCmd.granules (q : CopyCmd) (trunk : Nat) : List GranRead :=
  ((q.lines.map fun l => l.2 / 256 * 256).eraseDups.zipIdx).map fun x =>
    { off := x.1, readAt := trunk + Config.readPoint q.id x.2, got := none }

/-- A unit is requested in the `j`-th slot of its group that the core owns from now on: its data is there when the slot L slots
later has passed (R17, R22, R216, R218; slots are counted for each command by itself: DESIGN CHOICE, unsafe, log entry 66). -/
def State.requestUnit (s : State) (u : DrawerUnit) (j : Nat) : DrawerUnit :=
  let n := slotAfter (s.ownSlots u.group) s.slotNow j
  { u with slot := n % Config.frameSlots, due := max (s.trunk + 1) (s.slotEnd (n + s.drawerL)) }

/-- COPY_COMMAND_START: the request phase begins (R209, R218). -/
def State.startCopy (s : State) (q : CopyCmd) : State :=
  let t := s.ctime
  let base := s.copyBase q t
  let units := q.units.map fun u =>
    s.requestUnit u (q.units.filter fun v => v.group = u.group && v.index < u.index).length
  let fixed := q.joined || q.h.tier = 2
  let q1 := { q with start := some t, base := base, units := units, grans := q.granules s.trunk
                     reqEnd := if fixed then some (t + (q.lines.length + 3) / 4) else none
                     complete := if q.joined then some (base + 4 * q.depth) else none }
  { s with core := s.core.setCopy q1 }

/-- The completion cycle that a command has when the deepest chain it meets is `x` (R213, R218). -/
def CopyCmd.due (q : CopyCmd) (x : Nat) : Nat :=
  if q.joined then q.base + 4 * q.depth
  else
    let c := q.base + 4 * x
    if q.h.tier.toNat < 2 && x > 0 then max (c + Config.sliceTraffic q.id) (q.reqEnd.getD c) else c

/-- What the first read of a granule of a replayed copy-in was composed from. A granule that the first read did not touch, since the
copy-in has other operands or another list now, has none. -/
def State.firstRead (s : State) (q : CopyCmd) (g : GranRead) : Option ReadKept :=
  (s.readLog.find? fun x => x.1 = (q.key, q.h.key g.off)).map (·.2)

/-- A granule of a copy-in is due at its read point; on a replay, on the core cycle of its first read (R264, R371). -/
def State.granDue (s : State) (q : CopyCmd) (g : GranRead) : Bool :=
  match s.firstRead q g with
  | some x => x.ctime ≤ s.ctime
  | none => g.readAt ≤ s.trunk

/-- One granule read: on a replay from the same patches as its first read, with the data that they have now (R264, R371). -/
def State.readFor (s : State) (q : CopyCmd) (g : GranRead) : GranRead × State :=
  let kept := (s.firstRead q g).getD (s.keepRead q.h g.off)
  let r := kept.granule (q.h.va + g.off)
  ({ g with got := some (r.bytes, r.depth, r.bad) }
    , if (s.firstRead q g).isSome then s else { s with readLog := ((q.key, q.h.key g.off), kept) :: s.readLog })

/-- The granules that are due, or all when `force` is set. -/
def State.readDue (s : State) (q : CopyCmd) (force : Bool) : List GranRead → List GranRead × State
  | [] => ([], s)
  | g :: gs =>
      let r := if g.got.isNone && (force || s.granDue q g) then s.readFor q g else (g, s)
      let rest := r.2.readDue q force gs
      (r.1 :: rest.1, rest.2)

/-- A started command on a trunk cycle: its read points, its request phase and its completion cycle. -/
def State.tickCopy (s : State) (q : CopyCmd) : State :=
  if q.start.isNone || q.done then s
  else
    let t := s.ctime
    let r := s.readDue q false q.grans
    let q1 := { q with grans := r.1 }
    let force := q1.due q1.met ≤ t
    let r2 := if force then r.2.readDue q1 true q1.grans else (q1.grans, r.2)
    let q2 := { q1 with grans := r2.1 }
    let nat := q2.start.getD 0 + (q2.lines.length + 3) / 4
    let q3 := if q2.reqEnd.isNone && nat ≤ t then
        { q2 with reqEnd := some (if q2.met > 0 then nat + Config.requestStretch q2.id else nat) } else q2
    let q4 := if q3.complete.isNone && q3.reqEnd.isSome && q3.grans.all (·.got.isSome) then
        { q3 with complete := some (max (q3.due q3.met) t) } else q3
    { r2.2 with core := r2.2.core.setCopy q4 }

/-- The depth that the home slice reports on s + 16 (R215). -/
def State.depthMet (s : State) (q : CopyCmd) : Nat :=
  (q.grans.map fun g => match g.got with | some x => x.2.1 | none => (s.readGranule q.h g.off).depth).foldl max 0

/-- CHAIN DEPTH of a copy-in in a joined section (R215). -/
def State.checkDepth (s : State) (q : CopyCmd) : State :=
  if q.joined && q.start.any (fun x => x + 16 = s.ctime) && s.depthMet q > q.depth then
    s.queueFault ⟨0x53, .stall, 10, q.at_, true,
      2#8 ++ 0#10 ++ BitVec.ofNat 6 q.depth ++ 0#1 ++ BitVec.ofNat 7 (s.depthMet q), 0, 0,
      some (.until (s.trunk + 4 * (s.depthMet q - q.depth)))⟩
  else s

/-- All commands on a trunk cycle; `moved` says that core time has advanced. Commands completed on an earlier cycle leave
the queue, and with them their locks (R174, R213). A GATHER list that was read from poisoned lines sets PX as the cycle of the read
ends (R365, R367). -/
def State.tickCopies (s : State) (moved : Bool) : State :=
  let keep := s.core.copyQ.filter fun q => !(q.done && q.complete.any (· < s.ctime))
  let c : Core := { s.core with copyQ := keep.map fun q => { q with listBad := false } }
  let s1 := { s with core := if keep.any (·.listBad) then c.setCir cirPX else c }
  let s2 := s1.core.copyQ.foldl (fun s q => s.tickCopy q) s1
  if moved then s2.core.copyQ.foldl (fun s q => s.checkDepth q) s2 else s2

/-- The bytes and the poison of one line of a command. -/
def CopyCmd.lineOf (q : CopyCmd) (off : Nat) : List Byte × Bool :=
  if q.units.any fun u => u.lost && (q.h.phys + u.off) / 4096 = (q.h.phys + off) / 4096 then (List.replicate 64 0, true)
  else
    match q.grans.find? fun g => g.off = off / 256 * 256 with
    | some g => match g.got with
      | some (bs, _, bad) => ((bs.drop (off % 256)).take 64, bad.contains (off % 256 / 64))
      | none => (List.replicate 64 0, false)
    | none => (List.replicate 64 0, false)

/-- One line written, with its poison (R367). -/
def Core.copyLine (c : Core) (q : CopyCmd) (l : Nat × Nat) : Core :=
  let x := q.lineOf l.2
  let c1 := c.writeMem .ls (64 * l.1) x.1
  let line := PoisonUnit.lsLine l.1
  if x.2 then Core.setCir { c1 with poison := line :: c1.poison.filter (· ≠ line) } cirPX else c1

/-- Slots of the regions and halves that a command fills take its tag (R179, R212). -/
def Region.fill (r : Region) (q : CopyCmd) : Region :=
  (List.range 2).foldl (fun r h =>
    if q.lines.any fun l => (r.halves (64 * l.1) 64).contains h then r.setSlot h (some q.tag) else r) r

/-- COPY_IN_COMPLETION: every write has performed (R213), and counts in the phase in which it falls (R372). -/
def State.completeCopy (s : State) (q : CopyCmd) : State :=
  let s := s.touchDue (q.lines.flatMap fun l => unitsOf .ls (64 * l.1) 64)
  let c := q.lines.foldl (fun c l => c.copyLine q l) s.core
  let ls := q.lines.map (·.1)
  let fills := (ls, q.complete.getD 0 - q.start.getD 0) :: c.fills.filter fun f => !f.1.any ls.contains
  { s with core := { (c.setCopy { q with done := true }) with
      fills := fills, regions := c.regions.map fun r => r.map fun r => r.fill q } }

/-- The command that completes now: its cycle has come and every unit has arrived. -/
def State.copyCompletes (s : State) : Option CopyCmd :=
  s.core.copyQ.find? fun q =>
    !q.done && q.complete.any (· ≤ s.ctime) && q.grans.all (·.got.isSome) && q.units.all fun u => u.arrived || u.lost

/-- LINK STALL (R219). -/
def linkStall (q : CopyCmd) (u : DrawerUnit) : FaultInfo :=
  ⟨0x60, .stall, 10, q.at_, true, BitVec.ofNat 4 u.group ++ BitVec.ofNat 10 u.slot ++ BitVec.ofNat 18 u.index, 0, 0,
    some (.copy q.id)⟩

/-- One unit of a command changes. -/
def CopyCmd.setUnit (q : CopyCmd) (u : DrawerUnit) : CopyCmd :=
  { q with units := q.units.map fun x => if x.index = u.index then u else x }

/-- A unit that is due on this cycle or earlier: in turn of the queue. -/
def State.unitDue (s : State) : Option (CopyCmd × DrawerUnit) :=
  s.core.copyQ.findSome? fun q =>
    if q.start.isNone then none
    else (q.units.find? fun u => !u.arrived && !u.stalled && !u.lost && u.due ≤ s.trunk).map fun u => (q, u)

/-- What a unit of a replayed copy-in brings is kept from its first read, so that no link is needed for it (R371). -/
def State.unitKept (s : State) (q : CopyCmd) (u : DrawerUnit) : Bool :=
  s.replaying && q.grans.all fun g => (q.h.phys + g.off) / 4096 ≠ (q.h.phys + u.off) / 4096 || (s.firstRead q g).isSome

/-- DRAWER_UNIT_ARRIVAL: the unit lies in the landing buffer, or its group is retraining and the core stalls, or its group
is down and the unit is lost (R218, R219, R375). The group counts as it is on the cycle on which the unit is due, whatever the retraining
did between its request slot and that cycle (R219; DEDUCED, unsafe, log entry 93). -/
def State.unitArrives (s : State) (q : CopyCmd) (u : DrawerUnit) : State :=
  if s.asOf.groupsDown.contains u.group then
    { s with core := (s.core.setCopy (q.setUnit { u with lost := true })).setCir cirPX }
  else if s.retraining.contains u.group && !s.unitKept q u then
    let s1 := { s with core := s.core.setCopy (q.setUnit { u with stalled := true }) }
    let g := BitVec.ofNat 4 u.group
    let s2 := if s1.agenda.any fun e => e.2 = .linkGroupDown g then s1
      else s1.schedule (s.trunk + s.retrainLimit) (.linkGroupDown g)
    s2.queueFault (linkStall q u)
  else { s with core := s.core.setCopy (q.setUnit { u with arrived := true }) }

/-- Stalled units of a group are requested again in the core's next owned slots after the retrain (R219). -/
def State.rerequest (s : State) (group : Nat) : State :=
  let hit := fun (u : DrawerUnit) => u.stalled && u.group = group
  let keys := s.core.copyQ.flatMap fun q => (q.units.filter hit).map fun u => (q.id, u.index)
  { s with core := { s.core with copyQ := s.core.copyQ.map fun q =>
      { q with units := q.units.map fun u =>
          if hit u then { s.requestUnit u (keys.idxOf (q.id, u.index)) with stalled := false } else u } } }

/-- Every unit of a command will have arrived by its C in core time (R219). -/
def State.unitsReady (s : State) (id : Nat) : Bool :=
  s.core.copyQ.all fun q => q.id ≠ id || q.units.all fun u =>
    u.arrived || u.lost || (!u.stalled && u.due + s.ctime ≤ s.trunk + max (q.due q.met) s.ctime)

/-! ## Residency (R221 to R226) -/

/-- Handle checks of the prefetch words: `kind` 3 for DISCARD, which needs PD, else 1 with PR (R223, R225, R226). -/
def State.unitsFault (s : State) (discard : Bool) (n : BitVec 5) (off units : Nat) : Offence :=
  let h := s.core.readH n
  if !h.valid then some (0x40, 11, handleInvalid n)
  else if h.tier = 3 then some (0x43, 11, permission 5 n h)
  else if !discard && h.tier = 2 then some (0x43, 11, permission 4 n h)
  else if discard && !h.pd then some (0x43, 11, permission 3 n h)
  else if !discard && !h.pr then some (0x43, 11, permission 1 n h)
  else
    (boundsFault 2 n ([off].filter fun o => o % 4096 ≠ 0)).orElse
      (boundsFault 1 n (beyond (pageBytes h.psz) [(off, 4096 * units)]))

def Core.token (c : Core) (t : BitVec 4) : PfTok := c.pftok[t.toNat]'(by omega)
def Core.setToken (c : Core) (t : BitVec 4) (v : PfTok) : Core := { c with pftok := c.pftok.set t.toNat v (by omega) }

/-- An operation on a cycle: not while its token is BUSY; a tier-0 page needs none (R222 to R226). -/
def pfGo (kind : PfKind) (h : Handle) (off units : Nat) (tok : BitVec 4) (key : Nat × Nat) (s : State) : Res :=
  let set := fun (s : State) (v : PfTok) => { s with core := s.core.setToken tok v }
  match s.core.token tok with
  | .busy _ => .hold
  | _ =>
      if kind ≠ .discard && h.tier = 0 then .ok (set s (.done units))
      else
        let d := s.draw
        let s2 := set d.2 (.busy d.1)
        .ok { s2 with pfops := s2.pfops ++ [⟨d.1, tok, key, kind, h, off, units, s.trunk + 1 + Config.prefetchDelay d.1⟩] }

/-- A prefetch, pin or discard word: its checks at issue, and the operation, for which it waits while its token is BUSY
(R109, R222). -/
def pfStart (kind : PfKind) (n : BitVec 5) (off units : Nat) (tok : BitVec 4) (i : Issue) (s : State) : Res :=
  match s.unitsFault (kind = .discard) n off units with
  | some (code, eng, st) => .fault code eng st 0 0
  | none =>
      let h := s.core.readH n
      let k := s.nextKey
      (pfGo kind h off units tok k.1 k.2).orWait i k.2 (.prefetch kind h off units tok k.1)

def execPfetch (hd : Head) (h goff : BitVec 5) (units : BitVec 12) (tok : BitVec 4) (s : State) :=
  runWord 0x93 0 .noShadow hd (fun i s => pfStart .fetch h (s.readG i goff).toNat units.toNat tok i s) s

def execPfpin (hd : Head) (h goff : BitVec 5) (units : BitVec 12) (tok : BitVec 4) (s : State) :=
  runWord 0x95 0 .noShadow hd (fun i s => pfStart .pin h (s.readG i goff).toNat units.toNat tok i s) s

def execDiscard (hd : Head) (h goff : BitVec 5) (units : BitVec 12) (tok : BitVec 4) (s : State) :=
  runWord 0x97 0 .noShadow hd (fun i s => pfStart .discard h (s.readG i goff).toNat units.toNat tok i s) s

/-- PFUNPIN takes effect on t + 1 (R225). -/
def execPfunpin (hd : Head) (h goff : BitVec 5) (units : BitVec 12) (s : State) :=
  runWord 0x96 0 .noShadow hd (fun i s =>
    match s.unitsFault false h (s.readG i goff).toNat units.toNat with
    | some (code, eng, st) => .fault code eng st 0 0
    | none =>
        let k := s.nextKey
        .ok (k.2.after i 1 (.unpin k.1 (s.core.readH h) (s.readG i goff).toNat units.toNat))) s

/-- PFWAIT on a cycle: the count on the next cycle, and the token FREE (R224). -/
def pfwaitStep (g : BitVec 5) (tok : BitVec 4) (t : Nat) (s : State) : Res :=
  let go := fun (n : Nat) => .ok { s with core := (s.core.setToken tok .free).sched (t + 1) (.wg .L g (BitVec.ofNat 64 n)) }
  match s.core.token tok with
  | .busy _ => .hold
  | .done n => go n
  | .free => go 0

def execPfwait (hd : Head) (g : BitVec 5) (tok : BitVec 4) (s : State) :=
  runWord 0x94 0 .noShadow hd (fun i s => (pfwaitStep g tok i.t s).orWait i s (.pfwait g tok)) s

/-- Unit numbers of a range. -/
def unitList (h : Handle) (off units : Nat) : List Nat := (List.range units).map ((h.phys + off) / 4096 + ·)

/-- A cached unit belongs to a tenant and a die. -/
def CacheUnit.of (u : CacheUnit) (h : Handle) : Bool := u.home = h.home && u.tenant = h.tenant

/-- A queued or running copy-in of a context will read the unit (R221). -/
def Core.copyNeeds (c : Core) (u : CacheUnit) : Bool :=
  c.copyQ.any fun q => !q.done && q.h.tier = 1 && u.of q.h && q.lines.any fun l => (q.h.phys + l.2) / 4096 = u.unit

/-- A copy-in of the context on the core, or of a saved one, will read the unit (R221, R223). -/
def State.copyNeeds (s : State) (u : CacheUnit) : Bool := s.core.copyNeeds u || s.saved.any fun x => x.core.copyNeeds u

/-- The tenant's cache quota on the home die of a page (R221). -/
def State.cacheQuota (s : State) (h : Handle) : Nat :=
  ((s.tenants.find? fun x => x.id = h.tenant).map fun x => x.cacheQuota.getD h.home.toNat 0).getD 0

/-- Units made resident in order, with eviction; it stops when no unit can be evicted (R223). -/
def State.fetchUnits (s : State) (h : Handle) : List Nat → State
  | [] => s
  | u :: us =>
      if s.cache.any fun x => x.of h && x.unit = u then s.fetchUnits h us
      else
        let mine := s.cache.filter fun x => x.of h
        let put := fun (l : List CacheUnit) => ({ s with cache := l ++ [⟨h.home, h.tenant, u, false⟩] } : State)
        if mine.length < s.cacheQuota h then (put s.cache).fetchUnits h us
        else
          match mine.find? fun x => !x.pinned && !s.copyNeeds x with
          | none => s
          | some x => (put (s.cache.erase x)).fetchUnits h us

/-- Resident units pinned in order until the pin limit, and how many of the range are pinned (R225): units that were pinned before count
too, up to the first unit that the limit leaves unpinned, and none after it (DEDUCED, unsafe, log entry 78). -/
def State.pinUnits (s : State) (h : Handle) : List Nat → Nat → Nat × State
  | [], n => (n, s)
  | u :: us, n =>
      match s.cache.find? fun x => x.of h && x.unit = u with
      | none => s.pinUnits h us n
      | some x =>
          if x.pinned then s.pinUnits h us (n + 1)
          else if (s.cache.filter fun x => x.of h && x.pinned).length < s.cacheQuota h / 2 then
            State.pinUnits { s with cache := s.cache.map fun y => if y = x then { y with pinned := true } else y } h us (n + 1)
          else (n, s)

/-- PFUNPIN's effect; nothing on a tier-0 page, and nothing again on a replay (R225, R371). -/
def State.unpinUnits (s : State) (key : Nat × Nat) (h : Handle) (off units : Nat) : State :=
  if h.tier = 0 || (s.logged key).isSome then s
  else
    let us := unitList h off units
    let free := fun (x : CacheUnit) => if x.of h && us.contains x.unit then { x with pinned := false } else x
    State.addLog (s.changing true fun s => { s with cache := s.cache.map free }) key 0

/-- The granules of a tensor that a range of its page covers. -/
def Tensor.rangeGranules (t : Tensor) (h : Handle) (off n : Nat) : List Nat :=
  (List.range t.granules).filter fun g => h.va + off ≤ t.baseva + 256 * g && t.baseva + 256 * g < h.va + off + n

/-- DISCARD at the home slice: patches and cached units dropped, units dead (R226). -/
def State.discardUnits (s : State) (h : Handle) (off units : Nat) : State :=
  let us := unitList h off units
  let lo := h.key off
  let s1 := { s with cache := s.cache.filter fun x => !(h.tier = 1 && x.of h && us.contains x.unit)
                     dead := (us.map fun u => (lo / 2 ^ 57, u)) ++ s.dead.filter fun d => !(us.map fun u => (lo / 2 ^ 57, u)).contains d
                     gmem := s.gmem.filter fun c => !(lo ≤ c.1 && c.1 < lo + 4096 * units) }
  match s1.tensorOf h.tenant h.tid with
  | none => s1
  | some t =>
      let gs := t.rangeGranules h off (4096 * units)
      let chain := (t.chain.map fun r => { r with folded := (gs.filter (t.stands r ·)) ++ r.folded }).filter
        fun r => (t.granulesOf r).any fun g => !r.folded.contains g
      s1.setTensor { t with chain := chain }

/-- The operation is a saved context's: its token stands there (R222). -/
def State.pfAway (s : State) (o : PfOp) : Bool := s.saved.any fun x => x.core.token o.tok = .busy o.id

/-- The count that an operation of the context on the core gave the first time, and its core cycle (R371). -/
def State.pfLogged (s : State) (o : PfOp) : Option (Word × Nat) := if s.pfAway o then none else s.logged o.key

/-- An operation may end: its time has come, and no snapshot cursor has a granule of a DISCARD still ahead (R378). One
of a replayed phase ends on the core cycle on which it first did (R370, R371). -/
def State.pfReady (s : State) (o : PfOp) : Bool :=
  match s.pfLogged o with
  | some x => x.2 ≤ s.ctime
  | none => o.due ≤ s.trunk && (o.kind ≠ .discard ||
    match s.tensorOf o.h.tenant o.h.tid with
    | some t => (t.rangeGranules o.h o.off (4096 * o.units)).all fun g => !t.snapped g
    | none => true)

/-- What an operation does, and its count (R223, R225, R226). -/
def State.pfEffect (s : State) (o : PfOp) : Nat × State :=
  let us := unitList o.h o.off o.units
  match o.kind with
  | .fetch =>
      let s1 := s.fetchUnits o.h us
      ((us.filter fun u => s1.cache.any fun x => x.of o.h && x.unit = u).length, s1)
  | .pin => s.pinUnits o.h us 0
  | .discard => (o.units, s.discardUnits o.h o.off o.units)

/-- PREFETCH_DONE: the operation is made and its token becomes DONE with the count (R222). All its units become resident, pinned or dead
at once as it ends, since R223, R225 and R226 give no instant to a single unit (DESIGN CHOICE, unsafe, log entry 94). An effect of a
cancelled phase is answered and not made again (R371); a saved context is never replayed (R358), so its effects are not kept. -/
def State.pfDone (s : State) (o : PfOp) : State :=
  let r : Nat × State := match s.pfLogged o with
    | some x => (x.1.toNat, s)
    | none =>
        let n := (s.pfEffect o).1
        let s1 := s.changing (!s.pfAway o) fun s => (s.pfEffect o).2
        (n, if s.pfAway o then s1 else s1.addLog o.key (BitVec.ofNat 64 n))
  let end_ := fun (c : Core) => if c.token o.tok = .busy o.id then c.setToken o.tok (.done r.1) else c
  State.mapCores { r.2 with pfops := r.2.pfops.erase o } end_

/-! ## SLOTRD (R220) -/

/-- A slot table entry as the core's tenant may see it (R220). -/
def State.slotSeen (s : State) (group slot : Nat) : Word :=
  let e := s.slotEntry group slot
  let kind := field e 30 2
  if (kind = 1 || kind = 2) && field e 26 4 ≠ s.core.tenant then 0#32 ++ kind ++ 0#30 else 0#32 ++ e

def execSlotrdEntry (hd : Head) (g : BitVec 5) (group : BitVec 4) (slot : BitVec 10) (s : State) :=
  runWord 0x98 0 .noShadow hd (fun i s => .ok (s.writeGAfter i 2 g (s.slotSeen group.toNat slot.toNat))) s

def execSlotrdGap (hd : Head) (g : BitVec 5) (group : BitVec 4) (s : State) :=
  runWord 0x98 0 .noShadow hd
    (fun i s => .ok (s.writeGAfter i 2 g (BitVec.ofNat 64 (gmaxOf (s.ownSlots group.toNat))))) s

def execSlotrdLat (hd : Head) (g : BitVec 5) (s : State) :=
  runWord 0x98 0 .noShadow hd (fun i s => .ok (s.writeGAfter i 2 g (BitVec.ofNat 64 s.drawerL))) s

/-! ## Handles (R204, R205) -/

/-- TRANSLATION of an XLATE at its place (R204). -/
def translationFault (reason : Nat) (n : BitVec 5) (at_ : Place) : FaultInfo :=
  ⟨0x42, .deferred, 11, at_, true, BitVec.ofNat 4 reason ++ n ++ 0#23, 0, 0, none⟩

/-- On the replay of a strike, a mapping that was revoked in the span, on this core cycle or later (R207, R371). -/
def State.replayRevoked (s : State) (va : Nat) : Bool :=
  s.replaying &&
    s.revLog.any fun x => x.2.2.tenant = s.core.tenant && s.ctime ≤ x.2.1 && pageHolds x.2.2 va

/-- The handles built from a mapping become invalid, also those that words in flight would write (R207). -/
def Core.revoke (c : Core) (tenant : BitVec 4) (p : Page) : Core :=
  let from_ := fun (h : Handle) => h.valid && h.tenant = tenant && h.va = p.va
  let act := fun (a : Act) =>
    match a with
    | .wh n h => if from_ h then .wh n .invalid else a
    | .xlate n va _ => if field va 57 7 = 0 && pageHolds p va.toNat && c.tenant = tenant then .wh n .invalid else a
    | _ => a
  { c with h := c.h.map fun h => if from_ h then .invalid else h
           timeline := c.timeline.map fun e => { e with act := act e.act } }

/-- The end of an XLATE on t + 24: the handle, an installation for which the core freezes, or TRANSLATION (R204). -/
def State.xlateAct (s : State) (n : BitVec 5) (va : Word) (at_ : Place) : State :=
  let bad := fun (r : Nat) => State.queueFault { s with core := s.core.writeH n .invalid } (translationFault r n at_)
  if field va 57 7 ≠ 0 then bad 2
  else
    match s.pageAt s.core.tenant va.toNat with
    | none => if s.replayRevoked va.toNat then { s with core := s.core.writeH n .invalid } else bad 1
    | some p =>
        if p.installed then { s with core := s.core.writeH n (pageHandle p) }
        else
          let d := s.draw
          State.schedule { d.2 with core := { d.2.core with freeze := .install n va :: d.2.core.freeze } }
            (s.trunk + 1 + Config.installDelay d.1) .translationInstall

def execXlate (hd : Head) (h g : BitVec 5) (s : State) :=
  runWord 0xA0 0 .noShadow hd (fun i s => .ok (s.after i 24 (.xlate h (s.readG i g) i.at_))) s

def execHdrop (hd : Head) (h : BitVec 5) (s : State) :=
  runWord 0xA1 0 .noShadow hd (fun i s => .ok (s.after i 1 (.wh h .invalid))) s

/-- The descriptor of R202; an invalid handle gives zero. -/
def Handle.descriptor (h : Handle) : Word :=
  if h.valid then
    1#1 ++ h.tier ++ h.home ++ h.psz ++ bit1 h.pr ++ bit1 h.pp ++ bit1 h.pd ++ 0#1 ++ h.tenant ++ h.tid ++ 0#24
  else 0

def execHtest (hd : Head) (g h : BitVec 5) (s : State) :=
  runWord 0xA2 0 .noShadow hd (fun i s => .ok (s.writeGAfter i 2 g (s.core.readH h).descriptor)) s

def execHmov (hd : Head) (d src : BitVec 5) (s : State) :=
  runWord 0xA3 0 .noShadow hd (fun i s => .ok (s.after i 1 (.wh d (s.core.readH src)))) s

end Sys2Proof.Machine
end

