-- ==== Sys2Proof/Machine/Release.lean ====
section
/-! DEFINITION. Scopes (R263), observed sets and acquires (R266), and releases (R267). -/

namespace Sys2Proof.Machine

/-- The cores of this package have numbers below 192; any other number stands for a peer device (log entry 37). -/
def packageOf (x : Nat) : Nat := if x < 192 then 0 else x

/-- The core number that stands for the cores of a peer device: no core of this package has it (DESIGN CHOICE, unsafe, log entry 37). -/
def peerCore (source : BitVec 10) : Nat := 1024 + source.toNat

/-- Number of the modelled core. -/
def State.self (s : State) : Nat := s.core.pcore.toNat

/-- Patches enter the observed set. -/
def Core.observe (c : Core) (ps : List PName) : Core := { c with observed := c.observed ++ ps.filter fun p => !c.observed.contains p }

/-- The other devices of the context's partition (R263, R267). -/
def State.peers (s : State) : List (BitVec 10) :=
  if s.stations.toList.any fun x => x.contexts.any fun c => c.tenant = s.core.tenant then
    ((s.stations.toList.flatMap fun x => x.contexts.filter fun c => c.tenant = s.core.tenant).flatMap fun c =>
      (s.members.filter fun m => m.1 = c.partition && m.2 ≠ s.origin).map (·.2)).eraseDups
  else []

/-- A core of this package, or of another device of the context's partition (R263). -/
def State.inPod (s : State) (x : Nat) : Bool := packageOf x = 0 || s.peers.any fun p => peerCore p = x

/-- Scope `sc`, named by core `y`, covers core `x` (R263). With code 0 it covers of `y` only the issuing cluster's own words, but
no word releases or acquires with that code (R257, R270, R345). With code 5 both are cores of the context's partition. -/
def State.covers (s : State) (sc : BitVec 3) (y x : Nat) : Bool :=
  match sc.toNat with
  | 0 => false
  | 1 => x = y
  | 2 => x / 8 = y / 8
  | 3 => dieOf x = dieOf y
  | 4 => packageOf x = packageOf y
  | _ => s.inPod y && s.inPod x

/-- The FENCE acquire of R266 on this trunk cycle, of earlier releases and of those that `also` admits. -/
def State.acquireWith (s : State) (sc : BitVec 3) (also : RelDone → Bool) : State :=
  let sets := (s.relHist.filter fun r =>
    (r.at_ < s.trunk || also r) && s.covers sc s.self r.core && s.covers r.scope r.core s.self).flatMap (·.set)
  { s with core := s.core.observe sets }

def State.acquireFence (s : State) (sc : BitVec 3) : State := s.acquireWith sc fun _ => false

/-- The flag acquire of R266: every release written to the flag before. -/
def State.acquireFlag (s : State) (f : BitVec 8) : State :=
  let sets := (s.flagHist.filter fun w => w.flag = f && s.covers w.scope w.core s.self).flatMap (·.set)
  { s with core := s.core.observe sets }

/-- The delay of a scope after the last answer (R267). -/
def scopeDelay (sc : BitVec 3) : Nat := if sc.toNat ≤ 1 then 0 else if sc.toNat ≤ 3 then 8 else 32

/-- Every operation that the release waits for has been answered. -/
def Core.answered (c : Core) (ops : List Nat) : Bool := c.ops.all fun o => !(o.outstanding && ops.contains o.id)

/-- A refusal of an earlier operation has still to be taken as its fault (R247, R267). -/
def Core.refusalDue (c : Core) : Bool := (c.waitQ ++ c.faultQ).any fun f => f.kind = .deferred && f.engine = 7

/-- The acknowledgements of a pod-scope release have come; on a replay, on the core cycle of its first completion (R267, R370, R371). -/
def State.acksCome (s : State) (r : Release) : Bool :=
  match s.logged r.key with
  | some x => x.2 ≤ s.ctime
  | none => s.peers.all r.acks.contains

/-- A release completes on this core cycle; never while the core is frozen, nor before the fault of an earlier refusal. With peers
in the partition a pod-scope release completes on the cycle of the last acknowledgement, once every answer has come (R267). -/
def State.releaseReady (s : State) (r : Release) : Bool :=
  s.core.freeze = [] && s.core.answered r.ops && !s.core.refusalDue && r.notBefore ≤ s.trunk &&
    if r.scope.toNat = 5 && s.peers ≠ [] then s.acksCome r
    else r.lastAnswer.all fun a => a + scopeDelay r.scope ≤ s.ctime

/-- The names of the originals of the inverses in a list (R267). -/
def originals (ps : List PName) : List PName := (ps.filter fun p => nameInv p.2).map fun p => (p.1, p.2 &&& ~~~1#64)

/-- The release set, fixed on completion (R267). -/
def State.releaseSet (s : State) (r : Release) : List PName :=
  let own := (s.core.mine.filter fun m => m.2 < r.issued).map (·.1)
  let all := own ++ s.core.observed
  (all ++ originals all).eraseDups

/-- A new release of an issuing word (R267). -/
def State.newRelease (s : State) (i : Issue) (sc : BitVec 3) (act : RelAct) (notBefore : Nat) : Release × State :=
  let d := s.draw
  let k := d.2.nextKey
  let r : Release :=
    { id := d.1, key := k.1, scope := sc, issued := i.trunk, ops := (s.core.ops.filter (·.outstanding)).map (·.id)
      lastAnswer := s.core.lastAnswer, notBefore := notBefore, acks := [], act := act, at_ := i.at_ }
  (r, { k.2 with core := { k.2.core with releases := k.2.core.releases ++ [r] } })

/-- The counter of a barrier increases 40 trunk cycles after the release, and carries its set (R345). -/
def State.barAdd (s : State) (b : BitVec 4) (sc : BitVec 3) (set : List PName) : State :=
  let inc : BarInc := ⟨b, s.trunk + 40, s.self, sc, set⟩
  { s with launches := s.launches.map fun l =>
      if s.contextLaunch = some l.id then { l with barriers := l.barriers ++ [inc] } else l }

/-- A release set is published, once: a replay adds nothing to it (R267, R371). -/
def State.publish (s : State) (r : Release) (set : List PName) : State :=
  let last := if r.act = .taskend then s.task else none
  if (s.logged r.key).isSome then s
  else State.addLog { s with relHist := s.relHist ++ [⟨s.trunk, s.self, r.scope, set, last⟩] } r.key 0

/-- RELEASE_COMPLETE: the release set is fixed and published, and what the release was made for follows (R267, R271, R272,
R345). -/
def State.finishRelease (s : State) (r : Release) : State :=
  let set := s.releaseSet r
  let s0 := s.publish r set
  let s1 := { s0 with core := { s0.core with releases := s0.core.releases.filter (·.id ≠ r.id) } }
  match r.act with
  | .plain => s1
  | .acquire sc => s1.acquireFence sc
  | .flag o =>
      s1.inPlace (s1.core.cl r.at_.cl).seqAt fun s =>
        { s with core := s.core.sched (s.ctime + 4) (.flag r.at_.cl { o with rel := some set }) }
  | .bara b =>
      let k := s1.nextKey
      if (s1.logged k.1).isSome then k.2 else (k.2.barAdd b r.scope set).addLog k.1 0
  | .taskend => { s1 with retiring := s1.task }

/-- What the issuing cluster does after the release: it goes on, or waits for the flag access (R271). -/
def State.afterRelease (s : State) (r : Release) : State :=
  let k := s.core.cl r.at_.cl
  match r.act with
  | .flag _ => s.setCl r.at_.cl { k with mode := .instrWait, wait := some (.access (s.ctime + 4)) }
  | .taskend => s
  | _ => if k.wait = some (.release r.id) then s.endWait r.at_.cl else s

/-- A releasing word: the release completes at once, or its cluster waits for it (R267, R271). -/
def releaseWord (sc : BitVec 3) (act : RelAct) (i : Issue) (s : State) : State :=
  let n := s.newRelease i sc act 0
  if n.2.releaseReady n.1 then (n.2.finishRelease n.1).afterRelease n.1 else n.2.waitFor i (.release n.1.id)

end Sys2Proof.Machine
end

