-- ==== Sys2Proof/Machine/Patch.lean ====
section
/-! DEFINITION. The patch words of the W cluster (R230 to R260), their way to the home slice (R245 to R247), and what the
slice does with them. -/

namespace Sys2Proof.Machine

/-! ## Checks at issue (R206, R232, R244, R248) -/

/-- The kind of a recording word, 0 to 6 in FN order (R249). -/
def kindOf : Nat → PKind
  | 0 => .st | 1 => .add | 2 => .max | 3 => .min | 4 => .xor | 5 => .or | _ => .and

/-- The kind's tensor and data formats (R232). -/
def pairs (k : PKind) (tf : Fmt) (ef : Nat) : Bool :=
  let same := if tf = .n64 then ef == 0xA else Fmt.ofCode ef == some tf
  match k with
  | .add => if tf.isFloat then ((Fmt.ofCode ef).any Fmt.isFloat) else tf.isInt && same
  | .xor | .or | .and => tf.isInt && same
  | _ => same

/-- A peer device accepts these kinds (R244). -/
def PKind.remote (k : PKind) : Bool := k ≠ .st && k ≠ .restore

/-- Validity and permission of a patch word: kinds 2 and 7 (R206, R244, R248). -/
def State.patchHandleFault (s : State) (n : BitVec 5) (remote : Bool) : Offence :=
  let h := s.core.readH n
  if !h.valid then some (0x40, 11, handleInvalid n)
  else if !h.pp then some (0x43, 11, permission 2 n h)
  else if h.tier = 3 && !remote then some (0x43, 11, permission 7 n h)
  else none

/-- What a patch word needs to know of a tensor: format, virtual address of element 0, number of elements (R229). -/
structure TView where
  fmt : Fmt
  base : Nat
  count : Nat
  deriving DecidableEq, Repr

def Tensor.view (t : Tensor) : TView := ⟨t.fmt, t.baseva, t.count⟩

/-- The tensor behind a handle: by its descriptor, or, on a page of a peer device, as the handle carries it, since a TID names a
tensor of one device (R228, R229, R244). -/
def State.viewOf (s : State) (h : Handle) : Option TView :=
  if h.tier = 3 then (Fmt.ofCode h.fmt.toNat).map fun f => ⟨f, h.base, h.count⟩
  else (s.tensorOf h.tenant h.tid).map Tensor.view

/-- Element offsets of a page that are elements of its tensor, as a range (R229, R248). -/
def TView.pageRange (v : TView) (h : Handle) : Int × Int :=
  let b := ((v.base : Int) - h.va) / v.fmt.bytes
  (max 0 b, min ((pageBytes h.psz : Int) / v.fmt.bytes) (b + v.count))

/-- The tensor index of an element offset of a page. -/
def TView.elemOf (v : TView) (h : Handle) (o : Nat) : Nat := ((o : Int) - ((v.base : Int) - h.va) / v.fmt.bytes).toNat

/-- The footprint of a recording word: rows, columns, pitch (R248). -/
structure Foot where
  off : Nat
  rows : Nat
  cols : Nat
  pitch : Nat
  deriving DecidableEq, Repr

/-- Element offsets of a footprint outside a range: the lowest of each row that leaves it. -/
def Foot.outside (f : Foot) (r : Int × Int) : List Nat :=
  (List.range f.rows).filterMap fun i =>
    let o := f.off + i * f.pitch
    if (o : Int) < r.1 then some o else if (o + f.cols : Int) > r.2 then some (max (o : Int) r.2).toNat else none

/-- Size, pitch and range of a footprint: checks 1 and 2 of R248. -/
def State.footFault (s : State) (n : BitVec 5) (bytes : Nat) (f : Foot) : Offence :=
  let h := s.core.readH n
  if f.rows * bytes > 65536 || (f.rows > 1 && f.pitch < f.cols) then some (0x41, 11, handleBounds 4 n 0)
  else
    match s.viewOf h with
    | some v => boundsFault 1 n ((f.outside (v.pageRange h)).map (· * v.fmt.bytes))
    | none => some (0x41, 11, handleBounds 1 n f.off)

/-- The data reads of a recording word: 64 bytes on each cycle from `s0` (R245). -/
def patchPlan (s0 addr bytes : Nat) : List Planned :=
  (List.range ((bytes + 63) / 64)).map fun j => ⟨s0 + j, 7, false, (addr + 64 * j : Nat), min 64 (bytes - 64 * j), 16, false⟩

/-- PATCH STORE FULL reason 3 (R248, R261). -/
def namesGone (h : Handle) : Res := .fault 0x54 7 (3#8 ++ h.tid) 0 0

/-- The operations that the W cluster has outstanding (R246). -/
def Core.outstanding (c : Core) : Nat := (c.ops.filter (·.outstanding)).length

/-- The start floor of the running task (R235). -/
def State.taskFloor (s : State) : Nat :=
  match s.task with
  | none => 0
  | some (l, ix) =>
      ((s.launches.filter (·.id = l)).flatMap fun x => (x.tasks.filter (·.ix = ix)).map (·.sf)).headD 0

/-- The next name, and the counter after it is taken (R231). -/
def State.nextName (s : State) : Word × State :=
  (makeName (s.core.readK 6) s.origin s.core.pseq, { s with core := { s.core with pseq := s.core.pseq + 1 } })

/-! ## Operations on their way (R243, R245, R246) -/

/-- The least core cycles from the last data read, or the issue, to acceptance at the slice: 24 or 96, and no bound to a peer (R6,
R245). -/
def State.leastFlight (s : State) (h : Handle) : Nat :=
  if h.tier = 3 then 0 else if h.home.toNat = dieOf s.self then 24 else 96

/-- How many trunk cycles more an operation takes (R245). -/
def flightDelay (id : Nat) (h : Handle) : Nat := if h.tier = 3 then Config.peerDelay id else Config.patchDelay id

/-- The station that a tenant's packets leave by: the first with a context of the tenant and its link up (R383, R386). -/
def State.stationOf (s : State) (tenant : BitVec 4) : Option Nat :=
  s.stations.toList.findIdx? fun x => x.up && x.contexts.any fun c => c.tenant = tenant

/-- Replay marks and first answers of an operation (R243, R371). -/
def State.newOp (s : State) (i : Issue) (kind : OpKind) (n : BitVec 5) (outstanding : Bool) : PatchOp × State :=
  let d := s.draw
  let k := d.2.nextKey
  let h := s.core.readH n
  let first := (s.opLog.find? fun x => x.1 = k.1).map (·.2.2)
  ({ id := d.1, kind := kind, hn := n, h := h, station := if h.tier = 3 then s.stationOf h.tenant else none, issued := i.trunk
     outstanding := outstanding, state := .reading, replay := s.replayUntil.any (i.t ≤ ·), key := k.1, stalled := []
     answerAt := first, at_ := i.at_ }, k.2)

/-- The state of an operation that sets out now. One that a replay sends again takes the least time, since its first answer says
when it is answered (R371). -/
def State.setsOut (s : State) (o : PatchOp) : OpState :=
  .flying (if o.answerAt.isSome then s.trunk else s.trunk + s.leastFlight o.h + flightDelay o.id o.h)
    (s.ctime + s.leastFlight o.h)

/-- An operation without data sets out at once (R245). -/
def State.sendOp (s : State) (o : PatchOp) : State :=
  { s with core := { s.core with ops := s.core.ops ++ [{ o with state := s.setsOut o }] } }

/-- The operation waits to be taken up (R246). -/
def State.queuedOp (s : State) (id : Nat) : Bool := s.core.w.wait = some (.slot id)

/-- The word's cluster waits for the operation to be taken up (R246). -/
def State.waitSlot (s : State) (i : Issue) (id : Nat) : State := s.waitFor i (.slot id)

/-- The condition of an operation word that issued while 32 operations were outstanding: no more than 31 others are. The
operation then sets out, unless its data is still being read (R109, R246). -/
def slotStep (id : Nat) (s : State) : Res :=
  if s.core.outstanding > 32 then .hold
  else
    let go := fun (o : PatchOp) => if o.id = id && o.state = .ready then { o with state := s.setsOut o } else o
    .ok { s with core := { s.core with ops := s.core.ops.map go } }

/-- A word whose operation stays outstanding; with 32 outstanding it is a waiting instruction (R246). -/
def operate (n : BitVec 5) (kind : OpKind) (i : Issue) (s : State) : Res :=
  match s.patchHandleFault n false with
  | some (code, eng, st) => .fault code eng st 0 0
  | none =>
      let full : Bool := s.core.outstanding ≥ 32
      let o := s.newOp i kind n true
      if full && i.joined then schedMiss i 3 0
      else if full then
        let c := o.2.core
        .ok (State.waitSlot { o.2 with core := { c with ops := c.ops ++ [{ o.1 with state := .ready }] } } i o.1.id)
      else .ok (o.2.sendOp o.1)

/-- A word that waits for its answer: never in a joined section (R249, R252, R253, R256). There a bad handle is reported before SCHEDULE
MISS cause 3 (DEDUCED, unsafe, log entry 57). -/
def enquire (n : BitVec 5) (kind : OpKind) (i : Issue) (s : State) : Res :=
  match s.patchHandleFault n false with
  | some (code, eng, st) => .fault code eng st 0 0
  | none =>
      if i.joined then schedMiss i 3 0
      else
        let o := s.newOp i kind n false
        .ok ((o.2.sendOp o.1).waitFor i (.answer o.1.id))

/-! ## The recording words (R250) -/

/-- The footprint that a recording word names (R248). -/
def State.footOf (s : State) (i : Issue) (o : PatchOps) : Foot :=
  let cols := 16 * (o.rowlen.toNat + 1) / ((Fmt.ofCode o.ef.toNat).getD .n8).bytes
  let p := (s.readG i o.g3).toNat
  ⟨(s.readG i o.goff).toNat, o.rows.toNat + 1, cols, if p = 0 then cols else p⟩

/-- PERMISSION kind 6 (R232). -/
def State.pairFault (s : State) (n : BitVec 5) (k : PKind) (ef : Nat) : Offence :=
  let h := s.core.readH n
  match s.viewOf h with
  | some v => if pairs k v.fmt ef then none else some (0x43, 11, permission 6 n h)
  | none => none

/-- A recording word with its checks passed: the name, its register, the data reads, the operation (R245, R250). -/
def recordGo (k : PKind) (sat : Bool) (o : PatchOps) (f : Foot) (bytes s0 : Nat) (i : Issue) (s : State) : State :=
  let h := s.core.readH o.h
  let nm := s.nextName
  let s1 := nm.2.writeGAfter i 1 o.g2 nm.1
  let r : PatchRec :=
    { tid := h.tid, tenant := h.tenant, name := nm.1, kind := k, ef := o.ef.toNat, sat := sat
      first := ((s.viewOf h).map fun v => v.elemOf h f.off).getD f.off, rows := f.rows, cols := f.cols, pitch := f.pitch, data := []
      sf := s.taskFloor, rs := none, issuer := s.self, digest := 0, poisoned := false, folded := [] }
  let addr := (s.readA i o.a).toNat
  let op := s1.newOp i (.record r addr (f.rows * bytes)) o.h true
  let n := (f.rows * bytes + 63) / 64
  let reads := (List.range n).map fun j => (s0 + j, Act.patchRead op.1.id j)
  let c := (op.2.core.schedAll reads)
  let s2 := { op.2 with core := { c with ops := c.ops ++ [op.1], patchFree := s0 + n } }
  if s.core.outstanding ≥ 32 then s2.waitSlot i op.1.id else s2

/-- A recording word (R244, R246, R248, R250). -/
def recordWord (k : PKind) (sat : Bool) (o : PatchOps) (i : Issue) (s : State) : Res :=
  let f := s.footOf i o
  let bytes := 16 * (o.rowlen.toNat + 1)
  match ((s.patchHandleFault o.h (PKind.remote k)).orElse (s.pairFault o.h k o.ef.toNat)).orElse (s.footFault o.h bytes f) with
  | some (code, eng, st) => .fault code eng st 0 0
  | none =>
      let s0 := max (i.t + 1) s.core.patchFree
      (s.lsCheck i 4 (patchPlan s0 (s.readA i o.a).toNat (f.rows * bytes))).bind fun s =>
        if s.core.pseq ≥ 2 ^ 17 then namesGone (s.core.readH o.h)
        else if s.core.outstanding ≥ 32 && i.joined then schedMiss i 3 0
        else .ok (recordGo k sat o f bytes s0 i s)

def execPst (hd : Head) (o : PatchOps) (s : State) := runWord 0xB0 0 .noShadow hd (recordWord .st false o) s
def execPadd (hd : Head) (o : PatchOps) (sat : Bool) (s : State) := runWord 0xB0 1 .noShadow hd (recordWord .add sat o) s
def execPmax (hd : Head) (o : PatchOps) (s : State) := runWord 0xB0 2 .noShadow hd (recordWord .max false o) s
def execPmin (hd : Head) (o : PatchOps) (s : State) := runWord 0xB0 3 .noShadow hd (recordWord .min false o) s
def execPxor (hd : Head) (o : PatchOps) (s : State) := runWord 0xB0 4 .noShadow hd (recordWord .xor false o) s
def execPor (hd : Head) (o : PatchOps) (s : State) := runWord 0xB0 5 .noShadow hd (recordWord .or false o) s
def execPand (hd : Head) (o : PatchOps) (s : State) := runWord 0xB0 6 .noShadow hd (recordWord .and false o) s

/-! ## The other patch words (R251 to R260) -/

def execPinv (hd : Head) (h name : BitVec 5) (s : State) :=
  runWord 0xB1 0 .noShadow hd (fun i s => operate h (.inv (s.readG i name)) i s) s

def execPdrop (hd : Head) (p h name : BitVec 5) (s : State) :=
  runWord 0xB2 0 .noShadow hd (fun i s => enquire h (.drop p (s.readG i name)) i s) s

def execPcomm (hd : Head) (p h na nb : BitVec 5) (s : State) :=
  runWord 0xB3 0 .noShadow hd (fun i s => enquire h (.comm p (s.readG i na) (s.readG i nb)) i s) s

/-- PXPL takes the task's next name (R231, R254). -/
def xplWord (h goff name src : BitVec 5) (i : Issue) (s : State) : Res :=
  let nm := s.nextName
  let kind := OpKind.xpl (field (s.readG i src) 0 24) (s.readG i name) (s.readG i goff).toNat nm.1 s.taskFloor
  match s.patchHandleFault h false with
  | some (code, eng, st) => .fault code eng st 0 0
  | none => if s.core.pseq ≥ 2 ^ 17 then namesGone (s.core.readH h) else operate h kind i nm.2

def execPxpl (hd : Head) (h goff name src : BitVec 5) (s : State) :=
  runWord 0xB4 0 .noShadow hd (xplWord h goff name src) s

def execPsq (hd : Head) (h : BitVec 5) (s : State) := runWord 0xB5 0 .noShadow hd (operate h .sq) s

def execPmrg (hd : Head) (p h na nb : BitVec 5) (s : State) :=
  runWord 0xB6 0 .noShadow hd (fun i s => enquire h (.mrg p (s.readG i na) (s.readG i nb)) i s) s

/-- PPUB: a release at its scope, for which it waits; in a joined section its condition must hold at issue (R257). -/
def ppubWord (scope : BitVec 3) (i : Issue) (s : State) : Res :=
  let n := s.newRelease i scope .plain 0
  if i.joined && !n.2.releaseReady n.1 then schedMiss i 3 0 else .ok (releaseWord scope .plain i s)

def execPpub (hd : Head) (scope : BitVec 3) (s : State) := runWord 0xB7 0 .noShadow hd (ppubWord scope) s

/-- PWAIT's condition for the operations that were outstanding at its issue (R258). -/
def pwaitStep (ops : List Nat) (s : State) : Res := if s.core.answered ops then .ok s else .hold

def execPwait (hd : Head) (s : State) :=
  runWord 0xB8 0 .noShadow hd (fun i s =>
    let ops := (s.core.ops.filter (·.outstanding)).map (·.id)
    (pwaitStep ops s).orWait i s (.pwait ops)) s

def execPname (hd : Head) (g : BitVec 5) (s : State) :=
  runWord 0xB9 0 .noShadow hd (fun i s => .ok (s.writeGAfter i 1 g s.nextName.1)) s

def execPsnapOn (hd : Head) (h : BitVec 5) (s : State) := runWord 0xBA 0 .noShadow hd (operate h (.snap true)) s
def execPsnapOff (hd : Head) (h : BitVec 5) (s : State) := runWord 0xBA 0 .noShadow hd (operate h (.snap false)) s

/-! ## Data reads (R245) -/

/-- One operation changes, in the core's context or a saved one. -/
def State.setOp (s : State) (o : PatchOp) : State :=
  s.mapCores fun c => { c with ops := c.ops.map fun x => if x.id = o.id then o else x }

/-- Equal pieces of a list, given the number of pieces. -/
def chop (n : Nat) : Nat → List Byte → List (List Byte)
  | 0, _ => []
  | k + 1, bs => bs.take n :: chop n k (bs.drop n)

/-- The act `patchRead`: 64 bytes of the data; after the last of them the operation sets out. -/
def State.patchReadAct (s : State) (id j : Nat) : State :=
  match s.core.ops.find? fun o => o.id = id && o.state = .reading with
  | none => s
  | some o =>
      match o.kind with
      | .record r addr bytes =>
          let x := s.core.readMem .ls cirPP (addr + 64 * j) (min 64 (bytes - 64 * j))
          let key := 2 ^ 64 + id
          let c := { x.2 with bufs := x.2.bufs ++ [(key, j, x.1)] }
          if (j + 1) * 64 < bytes then { s with core := c }
          else
            let all := ((c.bufs.filter fun b => b.1 = key).map (·.2.2)).flatten
            let sz := ((Fmt.ofCode r.ef).getD .n8).bytes
            let data := (chop sz (bytes / sz) all).map ofBytes
            let r1 := { r with data := data, digest := recDigest r.kind r.ef r.first r.rows r.cols r.pitch data }
            State.setOp { s with core := { c with bufs := c.bufs.filter fun b => b.1 ≠ key } }
              { o with kind := .record r1 addr bytes, state := if s.queuedOp id then .ready else s.setsOut o }
      | _ => s

/-! ## At the slice (R240 to R243, R251 to R256, R260) -/

/-- The record with a name. -/
def Tensor.byName (t : Tensor) (n : Word) : Option PatchRec := t.chain.find? fun r => r.name = n

/-- A code with its sign flipped (R251). -/
def negCode (f : Fmt) (b : Nat) : Nat :=
  if f.isFloat then (if (f.value b).isNaN then b else b ^^^ 2 ^ (f.bits - 1)) else f.encodeInt (-(b : Int))

/-- The data of a record as its slice reads it: zeros when it is poisoned (R367). -/
def PatchRec.clean (r : PatchRec) : List Nat := if r.poisoned then r.data.map fun _ => 0 else r.data

/-- The inverse of a record, if its kind has one (R251); it keeps SAT (DEDUCED, unsafe, log entry 54). Made from poisoned data
it is poisoned (R367; DEDUCED, unsafe, log entry 68). -/
def inverseOf (r : PatchRec) (issuer : Nat) : Option PatchRec :=
  let f := (Fmt.ofCode r.ef).getD .n8
  let mk := fun (k : PKind) (data : List Nat) =>
    some { r with name := r.name ||| 1, kind := k, data := data, issuer := issuer, poisoned := r.poisoned && k ≠ .restore
                  digest := recDigest k r.ef r.first r.rows r.cols r.pitch data }
  match r.kind with
  | .add => mk .add (if r.poisoned then r.clean else r.data.map (negCode f))
  | .xor => mk .xor r.clean
  | .st => mk .restore []
  | _ => none

/-- PINV at the slice: its four checks, then the fold line under the inverse's own name, then room (R240, R251). X1 of reason 2 is 0: the
rule leaves it open when a fold line is given there and when 0 (R261; DESIGN CHOICE, unsafe, log entry 79). -/
def State.arriveInv (s : State) (h : Handle) (issuer : Nat) (name : Word) : SliceRes :=
  match s.tensorOf h.tenant h.tid with
  | none => .answer s (.refused 0x51 2 name 0)
  | some t =>
      match t.byName name with
      | none => .answer s (.refused 0x51 2 name 0)
      | some r =>
          if nameInv name || (t.byName (name ||| 1)).isSome then .answer s (.refused 0x51 3 name 0)
          else
            match inverseOf r issuer with
            | none => .answer s (.refused 0x51 1 name 0)
            | some q =>
                if s.isSealed t name then .answer s (.refused 0x52 2 name 0)
                else match t.late q with
                  | some line => .answer s (.refused 0x52 1 q.name line)
                  | none => s.takePatch h.tenant h.home.toNat q

/-- PDROP at the slice (R252). -/
def State.arriveDrop (s : State) (h : Handle) (name : Word) : State × Bool :=
  match s.tensorOf h.tenant h.tid with
  | none => (s, false)
  | some t =>
      match t.byName name with
      | none => (s, false)
      | some r =>
          let own := name ||| 1
          let above := t.chain.any fun q => name.ult q.name && q.name ≠ own && t.share q r
          if s.isSealed t name || above then (s, false)
          else (s.setTensor { t with chain := t.chain.filter fun q => q.name ≠ name && q.name ≠ own }, true)

/-- PCOMM at the slice (R234, R253). R234 compares the patches themselves, so the whole footprints count, also where a granule has folded
one (DEDUCED, unsafe, log entry 90). -/
def State.arriveComm (s : State) (h : Handle) (a b : Word) : Bool :=
  match s.tensorOf h.tenant h.tid with
  | none => false
  | some t =>
      match t.byName a, t.byName b with
      | some p, some q => kindsCommute p.kind q.kind || !(p.elems.any fun e => (q.at? e).isSome)
      | _, _ => false

/-- Two records merged: the one with the lower name takes the sum of both (R256). -/
def mergedOf (p q : PatchRec) : PatchRec :=
  let val := fun (r : PatchRec) (d : Nat) => ((Fmt.ofCode r.ef).getD .f32).value d
  let data := (p.clean.zip q.clean).map fun x => convertTo .f32 (Val.add false (val p x.1) (val q x.2)) .rne false
  { p with ef := 1, data := data, digest := recDigest .add 1 p.first p.rows p.cols p.pitch data, poisoned := p.poisoned || q.poisoned }

/-- PMRG at the slice (R256). -/
def State.arriveMrg (s : State) (h : Handle) (a b : Word) : State × Bool :=
  match s.tensorOf h.tenant h.tid with
  | none => (s, false)
  | some t =>
      let lo := if a.ult b then a else b
      let hi := if a.ult b then b else a
      match t.byName lo, t.byName hi with
      | some p, some q =>
          let plain := fun (r : PatchRec) =>
            r.kind = .add && !nameInv r.name && (t.byName (r.name ||| 1)).isNone && !s.isSealed t r.name
          let between := t.chain.any fun r => lo.ult r.name && r.name.ult hi && (t.share r p || t.share r q)
          if lo ≠ hi && t.fmt.isFloat && plain p && plain q && p.elems = q.elems && p.sat = q.sat && !between then
            (s.setTensor { t with
              chain := (t.chain.filter fun r => r.name ≠ hi).map fun r => if r.name = lo then mergedOf p q else r }, true)
          else (s, false)
      | _, _ => (s, false)

/-- The values beneath a record in a composition of the whole chain (R233, R254); where the record has been folded and left the granule,
a free value (log entry 84). -/
def State.priors (s : State) (t : Tensor) (name : Word) (elems : List Nat) : List Nat :=
  elems.map fun e =>
    let key := (s.baseKey t (e / t.perGranule)).map (· + e % t.perGranule * t.size)
    let base := match key with
      | some k => ofBytes ((List.range t.size).map fun j => s.gbyte (k + j))
      | none => 0
    let out := composeOver t.fmt e (t.chainAt (e / t.perGranule)) base []
    ((out.2.find? fun x => x.1 = name).map (·.2)).getD (Config.foldedPrior t.desc.tid name e % 2 ^ (8 * t.size))

/-- PXPL at the slice (R254). A footprint that stays in the page and leaves the elements of the tensor is refused with reason 4 as well
(DEDUCED, unsafe, log entry 85). -/
def State.arriveXpl (s : State) (o : PatchOp) (issuer : Nat) (srcTid : BitVec 24) (srcName : Word) (off : Nat) (name : Word)
    (sf : Nat) : SliceRes :=
  let x1 := 0#40 ++ srcTid
  match s.tensorOf o.h.tenant o.h.tid, s.tensorOf o.h.tenant srcTid with
  | none, _ => .answer s .accepted
  | some _, none => .answer s (.refused 0x56 3 srcName x1)
  | some t, some u =>
      let sameShape := t.desc.fmt = u.desc.fmt && t.desc.e0 = u.desc.e0 && t.desc.e1 = u.desc.e1 && t.desc.e2 = u.desc.e2 &&
        t.desc.e3 = u.desc.e3
      if !sameShape then .answer s (.refused 0x56 1 srcName x1)
      else
        match u.byName srcName with
        | none => .answer s (.refused 0x56 2 srcName x1)
        | some r =>
            if (Foot.outside ⟨off, r.rows, r.cols, r.pitch⟩ (t.view.pageRange o.h)) ≠ [] then .answer s (.refused 0x56 4 srcName x1)
            else
              let data := if r.kind = .restore then s.priors u (srcName &&& ~~~1#64) r.elems else r.clean
              let kind := if r.kind = .restore then PKind.st else r.kind
              let q := { r with tid := t.desc.tid, name := name, kind := kind, first := t.view.elemOf o.h off, data := data
                                sf := sf, rs := none, issuer := issuer, folded := []
                                digest := recDigest kind r.ef (t.view.elemOf o.h off) r.rows r.cols r.pitch data }
              s.arriveRecord o.h.tenant o.h.home.toNat o.replay q

/-- PSQ at the slice: every granule of the handle's page is folded; it is accepted when the page's folds that need write slots have been
written back (R216, R255; DESIGN CHOICE, unsafe, log entry 66). `again` is an operation that has been waiting for them. -/
def State.arriveSq (s : State) (h : Handle) (again : Bool) : SliceRes :=
  match s.tensorOf h.tenant h.tid with
  | none => .answer s .accepted
  | some t =>
      let gs := (sortNat (t.chain.flatMap t.granulesOf).eraseDups).filter fun g =>
        h.va ≤ t.baseva + 256 * g && t.baseva + 256 * g < h.va + pageBytes h.psz
      let s1 := if again then s else s.foldGranules h.tenant h.tid gs
      let open_ := fun (w : SlotWrite) => w.tenant = h.tenant && w.tid = h.tid &&
        h.phys / 4096 ≤ w.block && 4096 * w.block < h.phys + pageBytes h.psz
      if s1.slotWrites.any open_ then .hold s1 .heldWrite 0 else .answer s1 .accepted

/-- The tenant has a checkpoint area (R378). -/
def State.hasArea (s : State) (tenant : BitVec 4) : Bool := s.tenants.any fun x => x.id = tenant && x.checkpointArea

/-! ### Shards (R379) -/

/-- The magic value and the version of a shard. -/
def shardMagic : BitVec 32 := 0x44534E46
def shardVersion : BitVec 16 := 1

/-- The header of a shard whose copy begins: incomplete, without a payload yet. -/
def shardHead (e : TensorDesc) : ShardHead :=
  { magic := shardMagic, version := shardVersion, fmt := e.fmt.setWidth 8, flags := 1, tid := e.tid.setWidth 32, e0 := e.e0, e1 := e.e1
    e2 := e.e2, e3 := e.e3, reserved := 0, digest := 0 }

/-- Flag 0 marks an incomplete shard, flag 1 one with poisoned lines. -/
def shardIncomplete (h : ShardHead) : Bool := h.flags.getLsbD 0
def shardPoisoned (h : ShardHead) : Bool := h.flags.getLsbD 1
def shardFlags (incomplete poisoned : Bool) : BitVec 8 := (if incomplete then 1 else 0) ||| (if poisoned then 2 else 0)

/-- Numbers as little-endian bytes, and a digest or a signature as it is stored: highest byte first. -/
def leBytes (n v : Nat) : List Byte := (List.range n).map fun i => BitVec.ofNat 8 (v / 256 ^ i)
def beBytes (n v : Nat) : List Byte := (leBytes n v).reverse

/-- The 64 bytes of a shard's header (R379). R379 gives the SHA-256 of bytes 32 to 63 no byte order: it stands highest byte first (DESIGN
CHOICE, unsafe, log entry 69). -/
def shardHeadBytes (h : ShardHead) : List Byte :=
  leBytes 4 h.magic.toNat ++ leBytes 2 h.version.toNat ++ [h.fmt, h.flags] ++ leBytes 4 h.tid.toNat ++ leBytes 4 h.e0.toNat ++
    leBytes 4 h.e1.toNat ++ leBytes 4 h.e2.toNat ++ leBytes 4 h.e3.toNat ++ leBytes 4 h.reserved.toNat ++ beBytes 32 h.digest.toNat

/-- A shard as the application cores write it to storage: header and payload. -/
def shardBytes (x : Shard) : List Byte := shardHeadBytes x.head ++ x.payload

/-- The shard is that of a tensor id. -/
def shardOf (tid : BitVec 24) (x : Shard) : Bool := x.head.tid = tid.setWidth 32

/-- A snapshot starts with its cursor at granule 0, an empty shard, and the first granule to copy (R378, R379). -/
def State.startSnap (s : State) (t : Tensor) : State :=
  let d := (s.setTensor { t with snap := some 0 }).draw
  let e := t.desc
  let old := d.2.shards.filter fun x => !(x.1 = t.tenant && shardOf e.tid x.2)
  State.schedule { d.2 with shards := old ++ [(t.tenant, ⟨shardHead e, []⟩)] } (s.trunk + 1 + Config.checkpointDelay d.1)
    (.checkpointCopyAdvance e.tid)

/-- PSNAP at the slice (R260, R378). -/
def State.arriveSnap (s : State) (h : Handle) (on : Bool) : State :=
  match s.tensorOf h.tenant h.tid with
  | none => s
  | some t =>
      if on then (if t.snap.isSome || !s.hasArea h.tenant then s else s.startSnap t)
      else s.setTensor { t with snap := none }

/-- What a peer device does with a patch (R241, R242, R244, R261, R384): its answer, or a stall until its slice takes it. A PATCH
CONFLICT is one of mixed kinds, since no overwrite goes to a peer (R236, R244), and a marked patch meets no REPLAY DIVERGENCE
(R243). -/
def State.peerTakes (s : State) (o : PatchOp) (r : PatchRec) : SliceRes :=
  let a := Config.peerAnswer r.tid r.name r.digest
  let stall := fun (st : OpState) (x1 : Word) =>
    if s.trunk < o.issued + Config.peerHold o.id then SliceRes.hold s st x1 else .answer s .accepted
  match a.1 with
  | 0 => .answer s .accepted
  | 1 => .answer s (.refused 0x43 8 0 0)
  | 2 => .answer s (.refused 0x44 (a.2.1 % 64) r.name 0)
  | 3 => .answer s (.refused 0x50 2 r.name a.2.2)
  | 4 => .answer s (.refused 0x52 1 r.name a.2.2)
  | 5 => .answer s (if o.replay then .accepted else .refused 0x55 1 r.name 0)
  | 6 => stall .heldDepth a.2.2
  | 7 => stall .heldRecords 0
  | _ => stall .heldData 0

/-- TENANT KEY reason 4, given locally (R384). -/
def noPath (name : Word) : Answer := .refused 0x44 3 name 0

/-- The core that issued an operation, as its records name it. -/
def State.issuerOf (s : State) (o : PatchOp) : Nat := match o.kind with | .record r _ _ => r.issuer | _ => s.self

/-- The operation belongs to the context on the core. -/
def State.isOwn (s : State) (o : PatchOp) : Bool := s.core.ops.any fun x => x.id = o.id

/-- The answer that an operation of a replayed phase had the first time (R371); no phase of a saved context is replayed (R358). -/
def State.firstAnswer (s : State) (o : PatchOp) : Option Answer :=
  if s.isOwn o then (s.sliceLog.find? fun x => x.1 = o.key).map (·.2.1) else none

/-- The digest with which a recording word of a replayed phase was accepted the first time (R371). -/
def State.firstTaken (s : State) (o : PatchOp) : Option Word :=
  if s.isOwn o then (s.sliceLog.find? fun x => x.1 = o.key && x.2.1 = .accepted).map (·.2.2.1) else none

/-! ### A record that a replay replaces (R371, R374, R376) -/

/-- A record with those of the replay put in place of those that they replace, each known by its name and digest; its place in the
chain and what the retirement of its task gave it stay. -/
def substRec (rs : List (PatchRec × PatchRec)) (x : PatchRec) : PatchRec :=
  match rs.find? fun y => y.1.tenant = x.tenant && y.1.tid = x.tid && y.1.name = x.name && y.1.digest = x.digest with
  | some y => { y.2 with folded := x.folded, rs := x.rs, sf := x.sf }
  | none => x

/-- A record made from others, made anew from replaced ones. A transplanted Restore keeps the values that it took (R251, R254,
R256). -/
def Derived.remade (rs : List (PatchRec × PatchRec)) (d : Derived) : Derived :=
  let p := substRec rs d.p
  let q := substRec rs d.q
  let out := if p = d.p && q = d.q then d.out
    else match d.how with
      | .merge => mergedOf p q
      | .inverse => (inverseOf p d.out.issuer).getD d.out
      | .copy =>
          if p.kind = .restore then d.out
          else { p with tid := d.out.tid, name := d.out.name, first := d.out.first, data := p.clean, sf := d.out.sf, rs := d.out.rs
                        issuer := d.out.issuer, folded := d.out.folded
                        digest := recDigest p.kind p.ef d.out.first p.rows p.cols p.pitch p.clean }
  ⟨d.how, p, q, out⟩

/-- The records that slices have made since, oldest first, made anew: all replaced records, and the log. -/
def remadeAll : List (Nat × Derived) → List (PatchRec × PatchRec) → List (PatchRec × PatchRec) × List (Nat × Derived)
  | [], rs => (rs, [])
  | (n, d) :: ds, rs =>
      let e := d.remade rs
      let rest := remadeAll ds (if e = d then rs else (d.out, e.out) :: rs)
      (rest.1, (n, e) :: rest.2)

/-- The reads kept for a replay take the replaced records too (R264). -/
def ReadKept.subst (rs : List (PatchRec × PatchRec)) (k : ReadKept) : ReadKept :=
  { k with tensor := k.tensor.map fun t => { t with chain := t.chain.map (substRec rs) } }

/-- Tensors with replaced records. -/
def substAll (rs : List (PatchRec × PatchRec)) (ts : List Tensor) : List Tensor :=
  ts.map fun t => { t with chain := t.chain.map (substRec rs) }

/-- A recording word of a replayed phase has other data than its record had, whose digest is given: wherever that record or one made
from it stands, it is replaced in place, also in what is kept of the past, and where it has been dropped nothing stands (R371, R374;
DEDUCED, unsafe, log entry 74). -/
def State.retake (s : State) (digest : Word) (r : PatchRec) : State :=
  let x := remadeAll s.madeLog [({ r with digest := digest }, r)]
  let s1 := { s with tensors := substAll x.1 s.tensors
                     madeLog := x.2, readLog := s.readLog.map fun k => (k.1, k.2.subst x.1)
                     past := s.past.map fun y => (y.1, { y.2 with tensors := substAll x.1 y.2.tensors }) }
  if s.tensors.all fun t => t.chain.all fun y => substRec x.1 y = y then s1
  else if Config.readElsewhere s1.free then s1.draw.2.markLost r.tenant r.name else s1.draw.2

/-- What an accepted operation has made from other records, from the state before it to the state after; nothing where it was answered
as before. -/
def State.derivedBy (s s1 : State) (o : PatchOp) (a : Answer) : List Derived :=
  let rec_ := fun (s : State) (tid : BitVec 24) (n : Word) => (s.tensorOf o.h.tenant tid).bind fun t => t.byName n
  let make := fun (how : Making) (p q out : Option PatchRec) =>
    match p, q, out with
    | some p, some q, some out => [(⟨how, p, q, out⟩ : Derived)]
    | _, _, _ => []
  if (s.firstAnswer o).isSome then []
  else
    match o.kind, a with
    | .inv n, .accepted => make .inverse (rec_ s o.h.tid n) (rec_ s o.h.tid n) (rec_ s1 o.h.tid (n ||| 1))
    | .xpl tid n _ nm _, .accepted => make .copy (rec_ s tid n) (rec_ s tid n) (rec_ s1 o.h.tid nm)
    | .mrg _ x y, .pred true =>
        let lo := if x.ult y then x else y
        let hi := if x.ult y then y else x
        make .merge (rec_ s o.h.tid lo) (rec_ s o.h.tid hi) (rec_ s1 o.h.tid lo)
    | _, _ => []

/-- What a slice keeps of an operation that it has answered until the phase is final (R371). -/
def State.keepAnswer (s s1 : State) (o : PatchOp) (a : Answer) : State :=
  let digest := match o.kind with | .record r _ _ => r.digest | _ => 0
  { s1 with madeLog := s1.madeLog ++ (s.derivedBy s1 o a).map (s.core.phase, ·)
            sliceLog := if s.isOwn o then (o.key, a, digest, s.ctime) :: s1.sliceLog.filter (·.1 ≠ o.key) else s1.sliceLog }

/-- A patch for a peer device: over the link it was issued for, and accepted again when a replay sends it again (R244, R371,
R386). -/
def State.slicePeer (s : State) (o : PatchOp) (r : PatchRec) : SliceRes :=
  if s.firstAnswer o = some .accepted then .answer s .accepted
  else if o.station.any fun n => (s.stations.toList[n]?).any (·.up) then s.peerTakes o r else .answer s (noPath r.name)

/-- An operation at its slice (R236 to R256). An operation of a replayed phase that records nothing is answered as it
was the first time, and a record that was accepted the first time is accepted again and stands no second time (R371; DEDUCED,
unsafe, log entry 74). -/
def State.slice (s : State) (o : PatchOp) : SliceRes :=
  match o.kind with
  | .record r _ _ =>
      if o.h.tier = 3 then s.slicePeer o r
      else
        match s.firstTaken o with
        | some d => .answer (if d = r.digest then s else s.retake d r) .accepted
        | none => s.arriveRecord o.h.tenant o.h.home.toNat o.replay r
  | _ =>
      match s.firstAnswer o with
      | some a => .answer s a
      | none =>
          match o.kind with
          | .record .. => .answer s .accepted
          | .inv n => s.arriveInv o.h (s.issuerOf o) n
          | .xpl tid n off nm sf => s.arriveXpl o (s.issuerOf o) tid n off nm sf
          | .sq => s.arriveSq o.h (o.state = .heldWrite)
          | .snap on => .answer (s.arriveSnap o.h on) .accepted
          | .drop _ n => let r := s.arriveDrop o.h n; .answer r.1 (.pred r.2)
          | .comm _ a b => .answer s (.pred (s.arriveComm o.h a b))
          | .mrg _ a b => let r := s.arriveMrg o.h a b; .answer r.1 (.pred r.2)

/-- The name that a held operation carries (R261). -/
def PatchOp.name (o : PatchOp) : Word :=
  match o.kind with
  | .record r _ _ => r.name
  | .inv n => n ||| 1
  | .xpl _ _ _ n _ => n
  | _ => 0

/-- The stall of a held operation; a snapshot cursor and a write slot raise none (R241, R242, R255, R261). -/
def holdStall (o : PatchOp) (st : OpState) (x1 : Word) : Option FaultInfo :=
  let f := fun (code reason : Nat) (x1 : Word) =>
    some (⟨code, .stall, 7, o.at_, true, BitVec.ofNat 8 reason ++ o.h.tid, o.name, x1, some (.patch o.id)⟩ : FaultInfo)
  match st with
  | .heldDepth => f 0x53 1 x1
  | .heldRecords => f 0x54 1 0
  | .heldData => f 0x54 2 0
  | _ => none

/-- An answered operation takes its place behind those answered before it. -/
def State.answerOp (s : State) (o : PatchOp) : State :=
  s.mapCores fun c =>
    if c.ops.any fun x => x.id = o.id then { c with ops := (c.ops.filter fun x => x.id ≠ o.id) ++ [o] } else c

/-- The state that a slice leaves. -/
def SliceRes.state : SliceRes → State
  | .answer s _ => s
  | .hold s _ _ => s

/-- An operation at its slice, with what it changes kept for a replay (R370, R371). -/
def State.sliceNoted (s : State) (o : PatchOp) : SliceRes :=
  let note := s.noting (s.isOwn o) fun x => (x.slice o).state
  match s.slice o with
  | .answer s1 a => .answer (note s1) a
  | .hold s1 st x1 => .hold (note s1) st x1

/-- PATCH_ARRIVAL and PATCH_REOFFER: the slice answers the operation or holds it, and the issuing core takes each stall
once. -/
def State.offer (s : State) (o : PatchOp) : State :=
  match s.sliceNoted o with
  | .answer s1 a => (s.keepAnswer s1 o a).answerOp { o with state := .answered a }
  | .hold s1 st x1 =>
      match holdStall o st x1 with
      | none => s1.setOp { o with state := st }
      | some f =>
          if o.stalled.contains f.code then s1.setOp { o with state := st }
          else
            let s2 := s1.setOp { o with state := st, stalled := f.code :: o.stalled }
            if s.isOwn o then s2.takeStall o.key f
            else s2.mapCores fun c => if c.ops.any (fun x => x.id = o.id) then { c with faultQ := c.faultQ ++ [f] } else c

/-- What a slice does moves a held operation: it answers it, holds it for another reason, or takes a write slot for it. -/
def SliceRes.moves (r : SliceRes) (s : State) (held : OpState) : Bool :=
  match r with
  | .answer _ _ => true
  | .hold s1 st _ => st ≠ held || s1.slotWrites ≠ s.slotWrites

/-- A held operation has a different standing now (R241, R242, R255). -/
def State.reoffers (s : State) (o : PatchOp) : Bool :=
  match o.state with
  | .heldDepth | .heldRecords | .heldData | .heldSnap | .heldWrite => (s.slice o).moves s o.state
  | _ => false

/-- Every operation, of the core's context and of the saved ones. -/
def State.allOps (s : State) : List PatchOp := s.core.ops ++ s.saved.flatMap fun x => x.core.ops

/-! ## The answer (R247) -/

/-- The status word of a refusal (R206, R261, R384). TENANT KEY is given as its reason less one and, in the bits above,
the receiving station (DESIGN CHOICE, unsafe, log entry 23). -/
def refusalStatus (o : PatchOp) (code reason : Nat) : BitVec 32 :=
  if code = 0x43 then permission reason o.hn o.h
  else if code = 0x44 then BitVec.ofNat 4 (reason % 4 + 1) ++ BitVec.ofNat 4 (reason / 4) ++ o.h.tid
  else BitVec.ofNat 8 reason ++ o.h.tid

/-- A refusal as its deferred fault (R247). -/
def refusalFault (o : PatchOp) (code reason : Nat) (x0 x1 : Word) : FaultInfo :=
  ⟨code, .deferred, 7, o.at_, true, refusalStatus o code reason, x0, x1, none⟩

/-- The names that an accepted operation has put into the chain. -/
def PatchOp.names (o : PatchOp) : List PName :=
  match o.kind with
  | .record r _ _ => [(r.tid.toNat, r.name)]
  | .inv n => [(o.h.tid.toNat, n ||| 1)]
  | .xpl _ _ _ n _ => [(o.h.tid.toNat, n)]
  | _ => []

/-- The predicate that an enquiry writes. -/
def PatchOp.pred (o : PatchOp) : Option (BitVec 5) :=
  match o.kind with
  | .drop p _ => some p
  | .comm p _ _ => some p
  | .mrg p _ _ => some p
  | _ => none

/-- PATCH_ANSWER: the operation ends; a refusal is a deferred fault, an enquiry's predicate is written on the next cycle and
its cluster goes on (R246, R247, R252). -/
def State.deliver (s : State) (o : PatchOp) (a : Answer) : State :=
  let c := s.core
  let c1 := { c with
    ops := c.ops.filter fun x => x.id ≠ o.id
    lastAnswer := if o.outstanding then some s.ctime else c.lastAnswer
    releases := c.releases.map fun r => if r.ops.contains o.id then { r with lastAnswer := some s.ctime } else r
    mine := if a = .accepted then c.mine ++ o.names.map (·, o.issued) else c.mine }
  let s1 := { s with core := c1
                     opLog := if s.opLog.any (fun x => x.1 = o.key) then s.opLog else (o.key, a, s.ctime) :: s.opLog }
  match a with
  | .accepted => s1
  | .refused code reason x0 x1 => s1.queueFault (refusalFault o code reason x0 x1)
  | .pred b =>
      let s2 := match o.pred with
        | some p => s1.inPlace s1.core.w.seqAt fun s => { s with core := s.core.sched (s.ctime + 1) (.wp .W p b) }
        | none => s1
      if s2.core.w.wait = some (.answer o.id) then s2.endWait .W else s2

end Sys2Proof.Machine
end

