-- ==== Sys2Proof/Machine/Sync.lean ====
section
/-! DEFINITION. Flags and fences (R268 to R274) and barriers (R345). -/

namespace Sys2Proof.Machine

/-! ## Orders (R61, R270) -/

def ordAcq (o : FOrd) : Bool := bitAt o.ord 0
def ordRel (o : FOrd) : Bool := bitAt o.ord 1

/-- The context's launch holds its gang's flag file (R274, R344). -/
def State.holdsFlags (s : State) : Bool := s.launches.any fun l => s.contextLaunch = some l.id && l.granted && !l.completed

/-- FLAG (R274). -/
def flagFault (opc : Nat) (f : BitVec 8) : Res := .fault 0x70 13 (1#8 ++ BitVec.ofNat 8 opc ++ 0#8 ++ f) 0 0

/-- A flag word needs its gang's flag file (R274). -/
def withFlags (opc : Nat) (f : BitVec 8) (s : State) (k : Res) : Res := if s.holdsFlags then k else flagFault opc f

/-! ## Accesses (R269, R271) -/

/-- A flag's value. -/
def State.flagAt (s : State) (f : BitVec 8) : BitVec 32 := s.flags[f.toNat]'(by omega)
def State.setFlag (s : State) (f : BitVec 8) (v : BitVec 32) : State := { s with flags := s.flags.set f.toNat v (by omega) }

/-- The write of FSET and FADD with what it adds to the flag's history (R266, R271). -/
def State.flagWrite (s : State) (o : FlagOp) : State :=
  let s1 :=
    if o.kind = 0 then s.setFlag o.f o.v else if o.kind = 1 then s.setFlag o.f (s.flagAt o.f + o.v) else s
  match o.rel with
  | some set => { s1 with flagHist := s1.flagHist ++ [⟨o.f, s.self, o.scope, set⟩] }
  | none => s1

/-- The act `flag` on its cycle: kinds 0 FSET, 1 FADD, 2 FGET. An access of a replayed phase writes nothing again and
returns the value of the first one (R271, R371); its acquire takes up what stands in the flag's history now (DEDUCED, unsafe, log entry
74). -/
def State.flagAct (s : State) (c : Cluster) (o : FlagOp) : State :=
  let old := match s.logged o.key with | some x => x.1 | none => 0#32 ++ s.flagAt o.f
  let s1 := if o.acq then s.acquireFlag o.f else s
  let s2 := if (s.logged o.key).isSome then s1 else (s1.flagWrite o).addLog o.key old
  if o.kind = 0 then s2 else { s2 with core := s2.core.sched (s2.ctime + 4) (.wg c o.g old) }

/-- FWAIT's access on a cycle: done when the flag has reached the value, or, on a replay, on the cycle of the first
success (R271, R371). -/
def State.flagPoll (s : State) (c : Cluster) (o : FlagOp) : State :=
  let done := fun (s : State) (v : Word) =>
    let s1 := if o.acq then s.acquireFlag o.f else s
    let s2 := { s1 with core := s1.core.sched (s1.ctime + 4) (.wgFlag c o.g v) }
    s2.setCl c { s2.core.cl c with wait := some (.fwaitEnd (s2.ctime + 4)) }
  match s.logged o.key with
  | some x => if x.2 ≤ s.ctime then done s x.1 else s
  | none =>
      if reached (s.flagAt o.f) o.v then done (s.addLog o.key (0#32 ++ s.flagAt o.f)) (0#32 ++ s.flagAt o.f) else s

/-- The accesses of the shadow context's FGETs on a trunk cycle (R273), before those of the core's clusters: R269 orders the accesses of a
cycle by core and cluster and gives this tie no rule (DESIGN CHOICE, unsafe, log entry 86). -/
def State.shadowFlags (s : State) (trunk : Nat) : State :=
  let read := fun (a : Nat × Act) => match a with
    | (x, .shadowFlag g f) => if x ≤ trunk then (trunk + 4, Act.wg .S g (0#32 ++ s.flagAt f)) else a
    | _ => a
  { s with core := { s.core with shadow := { s.core.shadow with pend := s.core.shadow.pend.map read } } }

/-- The flag access of a word, with its index within the phase (R371). -/
def State.flagOp (s : State) (kind : Nat) (g : BitVec 5) (f : BitVec 8) (v : BitVec 32) (o : FOrd) : FlagOp × State :=
  let k := s.nextKey
  ({ kind := kind, key := k.1, f := f, v := v, g := g, acq := ordAcq o, scope := o.scope, rel := none }, k.2)

/-- FSET, FADD and FGET (R271, R273): the access four cycles after the issue, or after the release; with acquire the
cluster waits for it. Without the flag file a word raises FLAG also where R273 gives it SCHEDULE MISS (R274; DEDUCED, unsafe, log entry
57). -/
def flagWord (opc kind : Nat) (g : BitVec 5) (f : BitVec 8) (v : BitVec 32) (o : FOrd) (i : Issue) (s : State) : Res :=
  withFlags opc f s <|
    let op := s.flagOp kind g f v o
    if i.joined && o.ord ≠ 0 then schedMiss i 3 0
    else if ordRel o then .ok (releaseWord o.scope (.flag op.1) i op.2)
    else
      let s1 := op.2.after i 4 (.flag i.c op.1)
      .ok (if ordAcq o then s1.waitFor i (.access (i.t + 4)) else s1)

def execFset (hd : Head) (f : BitVec 8) (v : FVal) (o : FOrd) (s : State) :=
  runWord 0xC1 0 .noShadow hd (fun i s => flagWord 0xC1 0 0 f (s.readFVal i v) o i s) s

def execFadd (hd : Head) (g : BitVec 5) (f : BitVec 8) (v : FVal) (o : FOrd) (s : State) :=
  runWord 0xC2 0 .noShadow hd (fun i s => flagWord 0xC2 1 g f (s.readFVal i v) o i s) s

/-- FWAIT waits from its first access on t + 4 on; never in a joined section (R271, R273). -/
def execFwait (hd : Head) (g : BitVec 5) (f : BitVec 8) (v : FVal) (o : FOrd) (s : State) :=
  runWord 0xC3 0 .noShadow hd (fun i s =>
    withFlags 0xC3 f s <|
      let op := s.flagOp 3 g f (s.readFVal i v) o
      if i.joined then schedMiss i 3 0 else .ok (op.2.waitFor i (.fwait op.1 (i.t + 4)))) s

/-- Only an FGET with ORDER 0 may issue in the shadow context (R273, R353). -/
def plainInShadow (o : FOrd) (i : Issue) (_ : State) : Bool := !i.shadow || o.ord = 0

/-- FGET; in the shadow context its offsets count trunk cycles (R273). -/
def execFget (hd : Head) (g : BitVec 5) (f : BitVec 8) (o : FOrd) (s : State) :=
  runWordIf 0xC4 0 .both (plainInShadow o) hd (fun i s =>
    if i.shadow then withFlags 0xC4 f s (.ok (s.writeAfter i 4 (.shadowFlag g f)))
    else flagWord 0xC4 2 g f 0 o i s) s

/-! ## FENCE (R272) -/

def execFenceAcq (hd : Head) (scope : BitVec 3) (s : State) :=
  runWord 0xC0 0 .noShadow hd (fun _ s => withFlags 0xC0 0 s (.ok (s.acquireFence scope))) s

/-- A FENCE with release: never in a joined section (R272, R273). -/
def fenceWord (scope : BitVec 3) (act : RelAct) (i : Issue) (s : State) : Res :=
  withFlags 0xC0 0 s (if i.joined then schedMiss i 3 0 else .ok (releaseWord scope act i s))

def execFenceRel (hd : Head) (scope : BitVec 3) (s : State) :=
  runWord 0xC0 0 .noShadow hd (fenceWord scope .plain) s

def execFenceAcqrel (hd : Head) (scope : BitVec 3) (s : State) :=
  runWord 0xC0 0 .noShadow hd (fenceWord scope (.acquire scope)) s

/-! ## Barriers (R345) -/

/-- Increments of a barrier of the context's launch that stand at the barrier unit before this core's access on a trunk cycle:
those of earlier cycles, and on the same one those of no higher core number (R345). -/
def State.barIncs (s : State) (b : BitVec 4) (trunk : Nat) : List BarInc :=
  (s.launches.filter fun l => s.contextLaunch = some l.id).flatMap fun l =>
    l.barriers.filter fun x => x.bar = b && (x.at_ < trunk || (x.at_ = trunk && x.core ≤ s.self))

def execBara (hd : Head) (b : BitVec 4) (scope : BitVec 3) (s : State) :=
  runWord 0xC5 0 .noShadow hd (fun i s =>
    if i.joined then schedMiss i 3 0 else .ok (releaseWord scope (.bara b) i s)) s

/-- BARW on a core cycle: it acts when the counter, as it stood 40 trunk cycles ago, has reached the value (R345, R371). It
takes up the sets that both scopes cover (DEDUCED, unsafe, log entry 53). -/
def barwStep (g : BitVec 5) (b : BitVec 4) (v : BitVec 32) (scope : BitVec 3) (first : Nat) (key : Nat × Nat) (s : State) : Res :=
  let incs := s.barIncs b (s.trunk - 40)
  let go := fun (s : State) (n : Word) =>
    let sets := (incs.filter fun x => s.covers scope s.self x.core && s.covers x.scope x.core s.self).flatMap (·.set)
    .ok { s with core := (s.core.observe sets).sched (s.ctime + 1) (.wg .S g n) }
  if s.ctime < first || s.trunk < 40 then .hold
  else
    match s.logged key with
    | some x => if x.2 ≤ s.ctime then go s x.1 else .hold
    | none =>
        let n := BitVec.ofNat 32 incs.length
        if reached n v then go (s.addLog key (0#32 ++ n)) (0#32 ++ n) else .hold

def execBarw (hd : Head) (g : BitVec 5) (b : BitVec 4) (v : FVal) (scope : BitVec 3) (s : State) :=
  runWord 0xC6 0 .noShadow hd (fun i s =>
    if i.joined then schedMiss i 3 0
    else
      let k := s.nextKey
      .ok (k.2.waitFor i (.barw g b (s.readFVal i v) scope (i.t + 40) k.1))) s

end Sys2Proof.Machine
end

