-- ==== Sys2Proof/Machine/Plane.lean ====
section
/-! DEFINITION. Configuration planes: the loader's checks (R78, R79, R298, R330), a plane taking effect (R339), and how
clusters enter a plane (R107). -/

namespace Sys2Proof.Machine

/-- Where the sequence of sections of a plane ends (R80). -/
def planeEnd (p : List Byte) : Nat :=
  match (sections p).getLast? with
  | some (off, h) => off + 8 + 12 * h.len
  | none => 0

/-- Every header of an image passes R79, whose check 6 has R78's unique numbers in it. An image is nothing but sections (R45), so
a header that ends the sequence before the end of the image fails R79 too; fewer than 8 bytes after the last section hold no header
(DEDUCED, unsafe, log entry 48). -/
def headersOk (p : List Byte) : Bool :=
  ((sections p).all fun x => headerFault p x.1 x.2 = 0) && p.length < planeEnd p + 8

/-- One CONFIG record (R298). -/
inductive Config1 where
  | entry (ix : Nat) (v : Word)
  | preload (bank count ebytes sec : Nat) (bs : List Byte)
  deriving DecidableEq, Repr

/-- A CONFIG section read as a record, or refused (R298). Padding is not read (DEDUCED, unsafe, log entry 49). -/
def configOf (p : List Byte) (off : Nat) (h : Header) : Option Config1 :=
  let w := planeWord p off 0
  let ty := fieldN w 88 8
  if ty = 1 then
    let v : Word := field w 0 64
    if h.len = 1 && field w 64 20 = 0 && bitAt v 0 && entryOk v then some (.entry (fieldN w 84 4) v) else none
  else if ty = 2 then
    let count := fieldN w 78 8 + 1
    let eb := fieldN w 71 7 + 1
    if h.len = 1 + (count * eb + 11) / 12 && field w 0 71 = 0 then
      some (.preload (fieldN w 86 2) count eb h.secno.toNat ((p.drop (off + 20)).take (count * eb)))
    else none
  else none

/-- CONFIG sections in plane order. -/
def configs (p : List Byte) : List (Option Config1) :=
  ((sections p).filter fun x => x.2.kind = 5).map fun x => configOf p x.1 x.2

/-- DATA sections in increasing section number, as offset and length of the body (R339). -/
def dataSections (p : List Byte) : List (Nat × Nat) :=
  let ss := (sections p).filter fun x => x.2.kind = 4
  (sortNat (ss.map fun x => x.2.secno.toNat)).filterMap fun n =>
    (ss.find? fun x => x.2.secno.toNat = n).map fun x => (x.1 + 8, 12 * x.2.len)

/-- Where the bodies go: each at the next multiple of 256, from 0x30_0000 (R339). -/
def placeData : Nat → List (Nat × Nat) → List (Nat × Nat × Nat)
  | _, [] => []
  | a, (off, n) :: ds => (a, off, n) :: placeData ((a + n + 255) / 256 * 256) ds

def dataPlaces (p : List Byte) : List (Nat × Nat × Nat) := placeData 0x300000 (dataSections p)

/-- A plane image is refused (R330 reason 1, R339). -/
def planeRefused (p : List Byte) : Bool :=
  p.length > Config.planeBytes || !headersOk p || !((sections p).any fun x => x.2.kind = 0) ||
    (configs p).any Option.isNone || (dataPlaces p).any fun d => d.1 + d.2.2 > Config.lsBytes

/-- A CONFIG record applied: a format entry, or a codebook bank with its source (R287, R298). -/
def Core.applyConfig (c : Core) : Config1 → Core
  | .entry ix v => { c with ftab := c.ftab.setIfInBounds ix v }
  | .preload b count eb sec bs =>
      let c1 := (List.range count).foldl (fun c e =>
        let v := (bs.drop (eb * e)).take eb
        c.writeMem .cb (b * 32768 + 128 * e) (v ++ List.replicate (128 - v.length) 0)) c
      { c1 with banks := c1.banks.setIfInBounds b ⟨count, eb, false, .plane sec⟩ }

/-- The active plane takes effect: its CONFIG records apply and its DATA bodies go to local store (R339). -/
def State.planeEffect (s : State) : State :=
  let p := s.activePlane
  let c1 := (configs p).foldl (fun c x => match x with | some r => c.applyConfig r | none => c) s.core
  let c2 := (dataPlaces p).foldl (fun c d => c.writeMem .ls d.1 ((p.drop d.2.1).take d.2.2)) c1
  { s with core := c2 }

/-- The units of core state that a plane writes as it takes effect (R298, R339, R372). -/
def planeUnits (p : List Byte) : List Nat :=
  (configs p).flatMap (fun x => match x with
    | some (.preload b count _ _ _) => unitsOf .cb (b * 32768) (128 * count)
    | _ => []) ++ (dataPlaces p).flatMap fun d => unitsOf .ls d.1 d.2.2

/-- The first section of a cluster's kind (R107). -/
def firstSection (p : List Byte) (c : Cluster) : Option (Nat × Header) := (sections p).find? fun x => x.2.kind = c.idx

/-- A cluster starts in a plane: it enters its first section, or is parked (R107). -/
def ClusterSt.start (k : ClusterSt) (p : List Byte) (c : Cluster) (idle : Nat) : ClusterSt :=
  let k1 := { k with steer := none, lret := 0, any := false, lretWas := 0, anyWas := false, wait := none, idleRem := idle
                     runStart := true, entered := false }
  match firstSection p c with
  | some (off, h) => k1.enter off h 0
  | none => { k1 with mode := .parked }

/-- All four clusters start in the active plane; the first word of S issues `first` cycles on, those of the others `idle`. -/
def State.startClusters (s : State) (first idle : Nat) : State :=
  let p := s.activePlane
  let c := s.core
  { s with core := { c with s := c.s.start p .S first, l := c.l.start p .L idle, m := c.m.start p .M idle
                            w := c.w.start p .W idle } }

/-- The plane that is not active. -/
def Core.other (c : Core) : Nat := if c.plane then 0 else 1
def Core.active (c : Core) : Nat := if c.plane then 1 else 0

/-- A plane filled with an image. -/
def State.fillPlane (s : State) (n : Nat) (image : List Byte) (tag : Option (Nat × Nat)) : State :=
  { s with planes := s.planes.setIfInBounds n image, planeOf := s.planeOf.setIfInBounds n tag }

end Sys2Proof.Machine
end

