-- ==== Sys2Proof/Machine/Tasks.lean ====
section
/-! DEFINITION. Loop nests, slices, tasks (R328 to R332) and range hazards (R329, R333). -/

namespace Sys2Proof.Machine

/-! ## Nests (R328, R331) -/

/-- The temporal levels in walking order, outermost first (R331). -/
def Nest.temporal (n : Nest) : List Nat := ((List.range n.nlv).map n.permAt).filter fun i => n.levelKind i = 0

/-- Indices of the temporal levels at walk point `w`: the last listed level varies fastest (R331). -/
def walkIndices (n : Nest) (w : Nat) : List (Nat × Nat) :=
  (n.temporal.reverse.foldl (fun (a : List (Nat × Nat) × Nat) i =>
    ((i, a.2 % n.levelCount i) :: a.1, a.2 / n.levelCount i)) ([], w)).1

/-- A slice of `count` in `parts` parts. -/
def sliceOf (count parts d : Nat) : Nat × Nat := (d * count / parts, (d + 1) * count / parts)

/-- The range of level `i` for walk point `w` on logical index `l`, end exclusive (R148, R331; KIND 1 by the same formula,
DEDUCED, unsafe, log entry 47). -/
def Nest.levelRange (n : Nest) (w l i : Nat) : Nat × Nat :=
  if i ≥ n.nlv then (0, 1)
  else if n.levelKind i = 0 then
    let x := ((walkIndices n w).find? fun x => x.1 = i).map (·.2) |>.getD 0
    (x, x + 1)
  else if n.levelKind i = 2 then sliceOf (n.levelCount i) n.ndie (l / n.ncore)
  else if (List.range n.nlv).any fun j => n.levelKind j = 2 then sliceOf (n.levelCount i) n.ncore (l % n.ncore)
  else sliceOf (n.levelCount i) n.width l

/-- Walk point and logical index form a task when no spatial slice is empty (R331). -/
def Nest.isTask (n : Nest) (w l : Nat) : Bool :=
  (List.range n.nlv).all fun i => (n.levelRange w l i).1 < (n.levelRange w l i).2

def Nest.taskIx (n : Nest) (w l : Nat) : Nat := n.ixbase + w * n.width + l
def Nest.flg (n : Nest) : Bool := bitAt n.hdr 43
def Nest.critBit (n : Nest) : Bool := bitAt n.hdr 44
def Nest.rblk (n : Nest) : Nat := fieldN n.hdr 16 8

/-- The indices that a record takes (R332). -/
def Nest.span (n : Nest) : Nat := n.walks * n.width

/-- The shape is in range (R328, R330 reason 4). -/
def Nest.shapeOk (n : Nest) : Bool := 1 ≤ n.ncore && n.ncore ≤ 48 && 1 ≤ n.ndie && n.ndie ≤ 4

/-- Reserved bits of a record (R328). ALTVA and PLANEVA have 57 bits; a child or top-level record as submitted has CHILD
and IXBASE as its rule gives them. -/
def Nest.reservedOk (n : Nest) : Bool :=
  let w := fun i => n.words.getD i 0
  (List.range 19).all (fun i => w (13 + i) = 0) && field (w 12) 57 7 = 0 && field (w 11) 36 28 = 0 &&
    field (w 10) (3 * n.nlv) 64 = 0 && field (w 3) 6 2 = 0 && field (w 3) 11 53 = 0 && field (w 2) 57 7 = 0 &&
    field (w 1) 36 28 = 0 && field n.hdr 24 19 = 0 && field n.hdr 0 16 = 0 &&
    (List.range 6).all fun i => if i < n.nlv then field (n.level i) 32 30 = 0 else n.level i = 0

/-- R330 reason 3, but for the range block. -/
def Nest.wellFormed (n : Nest) : Bool :=
  n.reservedOk && fieldN n.hdr 56 8 = 1 && 1 ≤ n.nlv && n.nlv ≤ 6 &&
    ((List.range n.nlv).all fun i => n.levelKind i ≠ 3 && n.levelCount i ≠ 0) &&
    (sortNat ((List.range n.nlv).map n.permAt) = List.range n.nlv) &&
    ((List.range n.nlv).filter fun i => n.levelKind i = 1).length ≤ 1 &&
    ((List.range n.nlv).filter fun i => n.levelKind i = 2).length ≤ 1

/-- A range block as the launch list may hold it: at most eight entries of four dimensions, every other bit 0 (R329). -/
def rangeBlockOk (b : RangeBlock) : Bool :=
  b.reserved = 0 && b.entries.length ≤ 8 && b.entries.all fun e =>
    e.reserved = 0 && e.dims.length = 4 && e.dims.all fun d => d.1.m.length = 6 && d.2.m.length = 6

/-! ## Range hazards (R333) -/

/-- Least and greatest value of a bound over a task (R333). -/
def boundOver (n : Nest) (w l : Nat) (least : Bool) (b : Bound) : Int :=
  (List.range 6).foldl (fun (x : Int) i =>
    let m := (b.m.getD i 0).toInt
    let r := n.levelRange w l i
    x + m * (if (m ≥ 0) == least then (r.1 : Int) else (r.2 : Int) - 1)) b.c.toInt

/-- A bound's value clamped to the elements of a dimension (R333). -/
def clampTo (e : Nat) (x : Int) : Nat := min (e - 1) x.toNat

/-- The clamped box of an entry, outermost dimension first; none when it is empty (R333). -/
def boxOf (n : Nest) (w l : Nat) (es : List Nat) (e : RangeEntry) : Option (List (Nat × Nat)) :=
  let ds := (e.dims.zip es).map fun x =>
    (clampTo x.2 (boundOver n w l true x.1.1), clampTo x.2 (boundOver n w l false x.1.2))
  if (ds.any fun d => d.1 > d.2) || es.contains 0 then none else some ds

/-- The runs of elements of a box, as first and last element. -/
def runsOf : List (Nat × Nat) → List Nat → Nat → List (Nat × Nat)
  | [d], [e], base => [(base * e + d.1, base * e + d.2)]
  | d :: ds, e :: es, base => (List.range (d.2 - d.1 + 1)).flatMap fun i => runsOf ds es (base * e + d.1 + i)
  | _, _, _ => []

/-- Granule intervals of an entry for a task (R333). -/
def State.entryGranules (s : State) (tenant : BitVec 4) (n : Nest) (w l : Nat) (e : RangeEntry) : List (Nat × Nat) :=
  match s.tensorOf tenant e.tid with
  | none => []
  | some t =>
      let es := [t.desc.e3.toNat, t.desc.e2.toNat, t.desc.e1.toNat, t.desc.e0.toNat]
      match boxOf n w l es e with
      | none => []
      | some box => (runsOf box es 0).map fun r => (r.1 * t.size / 256, ((r.2 + 1) * t.size - 1) / 256)

/-- The range block of a record of a launch. -/
def Launch.block (l : Launch) (n : Nest) : List RangeEntry :=
  if n.rblk = 0xFF then [] else ((l.ranges[n.rblk]?).map (·.entries)).getD []

/-- One task, made or not yet made, of a launch. -/
structure TaskRef where
  launch : Launch
  nest : Nest
  walk : Nat
  l : Nat
  deriving DecidableEq, Repr

def TaskRef.ix (t : TaskRef) : Nat := t.nest.taskIx t.walk t.l

/-- Task X conflicts with task Y (R333). -/
def State.conflicts (s : State) (x y : TaskRef) : Bool :=
  (x.launch.block x.nest).any fun a => (y.launch.block y.nest).any fun b =>
    a.tid = b.tid && (a.write || b.write) &&
      (s.entryGranules x.launch.tenant x.nest x.walk x.l a).any fun p =>
        (s.entryGranules y.launch.tenant y.nest y.walk y.l b).any fun q => p.1 ≤ q.2 && q.1 ≤ p.2

/-- The virtual addresses of a record's plane image and of its alternate, 0 for none (R328). -/
def Nest.planeva (n : Nest) : Nat := fieldN (n.words.getD 2 0) 0 57
def Nest.altva (n : Nest) : Nat := fieldN (n.words.getD 12 0) 0 57

/-- The state of a task that its launch has made. -/
def Launch.task (l : Launch) (ix : Nat) : Option Task := l.tasks.find? fun t => t.ix = ix

/-- The tasks of a tenant that have not retired. -/
def State.unretired (s : State) (tenant : BitVec 4) : List TaskRef :=
  (s.launches.filter fun l => l.tenant = tenant && !l.completed).flatMap fun l =>
    l.nests.flatMap fun n => (List.range n.walks).flatMap fun w => ((List.range n.width).filter fun c =>
      n.isTask w c && (w ≥ n.reached || match l.task (n.taskIx w c) with | some t => t.state ≠ .retired | none => false)).map
        fun c => ⟨l, n, w, c⟩

/-- Unretired tasks of lower index with which a task conflicts (R333). -/
def State.blockers (s : State) (x : TaskRef) : List TaskRef :=
  (s.unretired x.launch.tenant).filter fun y => y.ix < x.ix && s.conflicts x y

/-! ## Journal and completions (R346, R388) -/

/-- The numbers that a journal entry's check covers. -/
def Change.nums : Change → List Nat
  | .accepted l => [1, l]
  | .dispatched l ix core => [2, l, ix, core]
  | .retired l ix rs => [3, l, ix, rs]
  | .placed l name => [4, l, name.toNat]
  | .walked l n => [5, l, n]
  | .grant l on => [6, l, if on then 1 else 0]

def journalCheck (seq : Nat) (c : Change) : Word := Config.digest (seq :: c.nums)

/-- A journal entry for a change, in a ring of 4,096 entries (R346). -/
def State.journalise (s : State) (c : Change) : State :=
  { s with journal := (⟨s.jseq + 1, c, journalCheck (s.jseq + 1) c⟩ :: s.journal).take 4096, jseq := s.jseq + 1 }

/-- A completion entry for a tenant, numbered and kept; none while no queue is open (R387, R389). -/
def State.complete (s : State) (tenant : BitVec 4) (c : Completion) : State :=
  { s with tenants := s.tenants.map fun t =>
      if t.id = tenant && t.created && s.hacc then
        { t with compSeq := t.compSeq + 1, kept := ((t.compSeq, c) :: t.kept).take 4096, posted := (t.compSeq, c) :: t.posted }
      else t }

/-- One tenant changes. -/
def State.setTenant (s : State) (id : BitVec 4) (f : Tenant → Tenant) : State :=
  { s with tenants := s.tenants.map fun t => if t.id = id then f t else t }

/-- One launch changes. -/
def State.setLaunch (s : State) (l : Launch) : State :=
  { s with launches := s.launches.map fun x => if x.id = l.id then l else x }

def State.launchOf (s : State) (id : Nat) : Option Launch := s.launches.find? fun l => l.id = id

/-- The launch of the context on the core, and the record of its task. -/
def State.ownLaunch (s : State) : Option Launch := s.contextLaunch.bind s.launchOf

def State.ownTask (s : State) : Option Task := s.task.bind fun x => (s.launchOf x.1).bind fun l => l.task x.2

def State.ownNest (s : State) : Option Nest :=
  s.ownLaunch.bind fun l => s.ownTask.bind fun t => l.nests[t.nestIx]?

/-- The waiting or running task as a reference. -/
def State.ownRef (s : State) : Option TaskRef :=
  s.ownLaunch.bind fun l => s.ownTask.bind fun t => (l.nests[t.nestIx]?).map fun n => ⟨l, n, t.walk, t.lcore⟩

end Sys2Proof.Machine
end

