-- ==== Sys2Proof/Machine/Sched.lean ====
section
/-! DEFINITION. The scheduler words: TASKEND (R336), SWAP (R339), KICK and KWAIT (R340 to R343), and CHKERR (R364). -/

namespace Sys2Proof.Machine

/-! ## Nothing in flight (R336, R364) -/

/-- No write is pending, no copy-in or prefetch is in flight and no patch operation is outstanding. -/
def Core.drained (c : Core) (t : Nat) : Bool :=
  !c.writePending t && c.copyQ.all (fun q => q.done && q.complete.any (· < t)) &&
    c.pftok.all (fun k => match k with | .busy _ => false | _ => true) && c.ops.all fun o => !o.outstanding

/-- L, M and W are parked (R118) or halted. -/
def Core.othersParked (c : Core) : Bool :=
  [c.l, c.m, c.w].all fun k => k.mode = .parked || k.mode = .halted

/-- TASKEND's condition (R336). -/
def Core.taskDone (c : Core) (t : Nat) : Bool := c.othersParked && c.drained t

/-! ## TASKEND (R336, R373) -/

/-- TASKEND on a cycle: the last phase ends, its release at pod scope is made, and its own acknowledgement comes 600 trunk cycles later. -/
def taskendStep (i : Issue) (s : State) : Res :=
  if s.core.taskDone i.t then
    let r := s.endPhase.newRelease i 5 .taskend (s.trunk + Config.finality)
    .ok (r.2.waitFor i (.taskendRelease r.1.id))
  else .hold

def execTaskend (hd : Head) (s : State) :=
  runWord 0xCA 0 .freeOnly hd (fun i s => (taskendStep i s).orWait i s .taskend) s

/-! ## SWAP (R339) -/

/-- The record of the task has an alternate plane. -/
def State.hasAlt (s : State) : Bool := s.ownNest.any fun n => n.altva ≠ 0

/-- The other one of a record's two images, when `va` is in the active plane (R339). -/
def Nest.otherVa (n : Nest) (va : Nat) : Nat := if va = n.planeva then n.altva else n.planeva

/-- The image that the running task's record wants in the shadow plane: with ALTVA, the other one (R339). -/
def State.otherImage (s : State) : Option (Nat × Nat) :=
  match s.ownNest, s.planeOf.getD s.core.active none with
  | some n, some (l, va) => if n.altva ≠ 0 then some (l, n.otherVa va) else none
  | _, _ => none

/-- The shadow plane is loaded with the other image of the task's record. -/
def State.shadowLoaded (s : State) : Bool := s.otherImage.isSome && s.planeOf.getD s.core.other none = s.otherImage

/-- The planes flip: the new plane takes effect and every cluster starts again under R107, its first word on the next cycle: S, when
it has issued SWAP on this one, counts no cycle. -/
def State.flip (s : State) : State :=
  let s1 := { s with core := { s.core with plane := !s.core.plane } }.planeEffect
  s1.startClusters (if s.core.s.issuedNow then 0 else 1) 1

/-- The image of the shadow plane. -/
def State.shadowImage (s : State) : List Byte := s.planes.getD s.core.other []

/-- SWAP on a cycle: the flip, with 1 for g[D] on the next cycle. What the new plane writes counts against the rollback area, and
may hold the word (R339, R372). -/
def swapStep (g : BitVec 5) (t : Nat) (s : State) : Res :=
  if s.core.taskDone t && s.shadowLoaded && s.mayEnd .swap then
    s.touching (planeUnits s.shadowImage) fun s0 =>
      let s := s0.noteEnd .swap
      .ok { s.flip with core := s.flip.core.sched (t + 1) (.wg .S g 1) }
  else .hold

def execSwap (hd : Head) (g : BitVec 5) (s : State) :=
  runWord 0xC9 0 .freeOnly hd (fun i s =>
    if s.hasAlt then (swapStep g i.t s).orWait i s (.swap g) else .ok (s.writeGAfter i 1 g 0)) s

/-! ## KICK (R340, R341, R343) -/

/-- CHILD POOL (R343). -/
def childPool (reason opc : Nat) (name : Word) : Res := .fault 0x71 14 (statusOpc reason opc 0) name 0

/-- The sixteen reads of a record, requester kind 0 (R340). -/
def kickPlan (t addr : Nat) : List Planned :=
  (List.range 16).map fun n => ⟨t + 1 + n, 0, false, (addr + 16 * n : Nat), 16, if n = 0 then 64 else 16, false⟩

/-- KICK with its checks passed: the name, its register, the reads, and the wait for the answer. -/
def kickGo (g : BitVec 5) (crit : Bool) (addr : Nat) (i : Issue) (s : State) : State :=
  let name := makeName (s.core.readK 6) s.origin s.core.kseq
  let old := s.readG i g
  let d := (s.writeGAfter i 1 g name).draw
  let k : KickOp := { id := d.1, name := name, g := g, crit := crit, addr := addr, bytes := [], spilled := false
                      waiting := false, seq := s.core.seq, writes := i.t + 1, oldG := old
                      replay := s.replayUntil.any (i.t ≤ ·), at_ := i.at_ }
  let c := d.2.core.schedAll ((List.range 16).map fun n => (i.t + 1 + n, Act.kickRead d.1 n))
  State.waitFor { d.2 with core := { c with kseq := c.kseq + 1, kick := some k } } i (.kick d.1)

def kickWord (g : BitVec 5) (a : BitVec 4) (crit : Bool) (i : Issue) (s : State) : Res :=
  let addr := (s.readA i a).toNat
  let plan := kickPlan i.t addr
  if i.joined then schedMiss i 3 0
  else
    match boundsOf plan with
    | some (k, r, o) => .fault 0x14 k (boundsStatus r k o) 0 0
    | none =>
        if s.core.kseq ≥ 2 ^ 17 then childPool 8 0xC7 0
        else (s.lsCheck i 3 plan).bind fun s => .ok (kickGo g crit addr i s)

def execKick (hd : Head) (g : BitVec 5) (a : BitVec 4) (crit : Bool) (s : State) :=
  runWord 0xC7 0 .noShadow hd (kickWord g a crit) s

/-- The act `kickRead`: 16 bytes of the record; after the last the record goes to the crown scheduler. -/
def State.kickReadAct (s : State) (id n : Nat) : State :=
  match s.core.kick with
  | none => s
  | some k =>
      if k.id ≠ id then s
      else
        let x := s.core.readMem .ls cirPSC (k.addr + 16 * n) 16
        let s1 := { s with core := { x.2 with kick := some { k with bytes := k.bytes ++ [(n, x.1)] } } }
        if n < 15 then s1 else s1.schedule (s.trunk + 1 + if s.replaying then 0 else Config.kickDelay id) .kickPlacement

/-- The 32 words of a record. -/
def recordWords (bs : List Byte) : List Word := (List.range 32).map fun i => BitVec.ofNat 64 (ofBytes ((bs.drop (8 * i)).take 8))

/-- A kicked record with CHILD and CRIT as the crown scheduler sets them, and its absolute first index (R340). -/
def childNest (l : Launch) (parent : Nat) (k : KickOp) : Nest :=
  let ws := recordWords (k.bytes.map (·.2)).flatten
  { words := ws, nest := parent, child := some k.name, crit := k.crit, ixbase := l.childBase + fieldN (ws.getD 1 0) 0 36
    reached := 0, digest := Config.digest (ws.map BitVec.toNat) }

/-- Two index ranges meet. -/
def spansMeet (a b : Nest) : Bool := a.ixbase < b.ixbase + b.span && b.ixbase < a.ixbase + a.span

/-- The reason of R343 for which the crown scheduler refuses a child, 0 when it takes it (R330, R340). -/
def childReason (l : Launch) (prio : Nat) (share : Nat) (n : Nest) : Nat :=
  if !n.wellFormed || !(n.rblk = 0xFF || n.rblk < l.ranges.length) then 1
  else if !n.shapeOk || n.width > share || (n.flg && n.ncore % 8 ≠ 0) then 4
  else if field n.hdr 49 4 ≠ l.tenant || n.prio > prio then 2
  else if n.ndie > l.ndie || n.ncore > l.ncore then 4
  else if n.ixbase + n.span > l.childBase + l.cspan ||
      l.nests.any fun x => x.child.isSome && spansMeet x n then 3
  else 0

/-- Free entries of the die's kick pool (R341). -/
def State.poolFree (s : State) : Nat := Config.kickPoolSize - s.pool.length

/-- The answer to a KICK: its wait ends (R341). -/
def State.answerKick (s : State) : State := State.endWait { s.noteEnd .kick with core := { s.core with kick := none } } .S

/-- A refusal of a KICK, raised precisely: the word has had no effect, so g[D] holds what earlier words have written to it, and LRET
and ANY stand as before it (R343). While the core is frozen the fault is queued like
any other, since it is no word of the handler (R348, R354). -/
def State.refuseKick (s : State) (k : KickOp) (reason : Nat) : State :=
  let cl := (s.core.s.writeG k.g k.oldG)
  let back := { cl with word := k.at_.word, mode := .running, wait := none, idleRem := 0, lret := cl.lretAt, any := cl.anyAt
                        runStart := cl.runAt }
  let s1 := { s.noteEnd .kick with core := { s.core with s := back, kick := none, kseq := s.core.kseq - 1 } }
  let f : FaultInfo := ⟨0x71, .precise, 14, k.at_, false, statusOpc reason 0xC7 0, k.name, 0, none⟩
  if s.core.freeze = [] then s1.raise f else s1.queueFault f

/-- The child enters its launch's records. -/
def State.addChild (s : State) (l : Launch) (n : Nest) : State := (s.setLaunch { l with nests := l.nests ++ [n] }).journalise (.placed l.id (n.child.getD 0))

/-- A kick that has room is placed; one that has none waits, and a critical one stalls its core (R341). -/
def State.placeNew (s : State) (k : KickOp) (l : Launch) (n : Nest) : State :=
  let name := (l.id, k.name)
  if s.poolFree > Config.kickReserve || (k.crit && s.poolFree > 0) then
    State.answerKick { (s.addChild l n) with pool := s.pool ++ [name] }
  else if k.crit then
    let s1 := { s with core := { s.core with kick := some { k with waiting := true } } }
    if k.waiting then s1
    else s1.takeStall (0, 0) ⟨0x71, .stall, 14, k.at_, true, statusOpc 5 0xC7 0, k.name, 0, some (.kick k.id)⟩
  else if s.spillQ.length < s.spillQueueSize then
    State.answerKick { (s.addChild l n) with spillQ := s.spillQ ++ [name] }
  else { s with core := { s.core with kick := some { k with waiting := true } } }

/-- A kick whose name is present already (R341, R371). -/
def State.placeAgain (s : State) (k : KickOp) (l : Launch) (old new : Nest) : State :=
  if old.digest = new.digest then s.answerKick
  else if k.replay && l.tasks.all (fun t => l.nests[t.nestIx]? ≠ some old || t.state = .ready) then
    State.answerKick (s.setLaunch { l with nests := l.nests.map fun x => if x = old then { new with reached := 0 } else x
                                           tasks := l.tasks.filter fun t => l.nests[t.nestIx]? ≠ some old })
  else (s.answerKick).queueFault ⟨0x55, .deferred, 14, k.at_, true, 2#8 ++ 0#24, k.name, 0, none⟩

/-- KICK_PLACEMENT (R340, R341). -/
def State.placeKick (s : State) : State :=
  match s.core.kick, s.ownLaunch with
  | some k, some l =>
      if k.bytes.length < 16 then s
      else
        let n := childNest l s.core.nest.toNat k
        match l.nests.find? fun x => x.child = some k.name with
        | some old => s.placeAgain k l old n
        | none =>
            let share := ((s.tenants.find? fun t => t.id = l.tenant).map (·.share)).getD 0
            match childReason l s.core.prio.toNat share n with
            | 0 => s.placeNew k l n
            | reason => s.refuseKick k reason
  | _, _ => s

/-! ## KWAIT (R342, R343) -/

/-- Every task of a record has retired. -/
def Launch.nestRetired (l : Launch) (n : Nest) : Bool :=
  n.reached ≥ n.walks && (List.range n.walks).all fun w => (List.range n.width).all fun c =>
    !n.isTask w c || match l.task (n.taskIx w c) with | some t => t.state = .retired | none => true

/-- The wait for a child could never end: a task of the child waits for the waiting task alone (R342; DEDUCED, unsafe, log
entry 39). -/
def State.waitsForever (s : State) (l : Launch) (n : Nest) : Bool :=
  !s.crownDown && (s.unretired l.tenant).any fun x =>
    x.nest = n && x.launch.id = l.id && (s.blockers x).map TaskRef.ix = (s.ownRef.toList.map TaskRef.ix) && s.ownRef.isSome

/-- KWAIT's acquire: earlier releases, and the last ones of the child's tasks, which complete on the cycles of their retirements (R336,
R342). -/
def State.acquireChild (s : State) (l : Launch) (n : Nest) : State :=
  let child := fun (t : Nat × Nat) => t.1 = l.id && n.ixbase ≤ t.2 && t.2 < n.ixbase + n.span
  s.acquireWith 5 fun r => r.at_ ≤ s.trunk && r.task.any child

/-- KWAIT on a cycle: the child's tasks have retired, and the pod-scope acquire is made (R342); during a crown take-over it
waits (R346). -/
def kwaitStep (name : Word) (s : State) : Res :=
  if s.crownDown || !s.mayEnd .kwait then .hold
  else match s.ownLaunch with
  | none => childPool 6 0xC8 name
  | some l =>
      match l.nests.find? fun x => x.child = some name with
      | none => childPool 6 0xC8 name
      | some n =>
          if l.nestRetired n then .ok ((s.noteEnd .kwait).acquireChild l n)
          else if s.waitsForever l n then childPool 7 0xC8 name else .hold

def execKwait (hd : Head) (g : BitVec 5) (s : State) :=
  runWord 0xC8 0 .noShadow hd (fun i s =>
    if i.joined then schedMiss i 3 0 else (kwaitStep (s.readG i g) s).orWait i s (.kwait (s.readG i g))) s

/-! ## CHKERR (R364) -/

/-- CHKERR on the first cycle on which its condition holds. -/
def chkerrStep (g : BitVec 5) (clr : Bool) (t : Nat) (s : State) : Res :=
  if s.core.drained t then
    let v := s.core.cir
    let c := s.core.sched (t + 2) (.wg .S g v)
    .ok { s with core := if clr then c.sched (t + 1) (.chkclr (v &&& cirW1C)) else c }
  else .hold

def execChkerr (hd : Head) (g : BitVec 5) (clr : Bool) (s : State) :=
  runWord 0xE0 0 .noShadow hd (fun i s => (chkerrStep g clr i.t s).orWait i s (.chkerr g clr)) s

end Sys2Proof.Machine
end

