-- ==== Sys2Proof/Machine/Timeline.lean ====
section
/-! DEFINITION. What comes due on a core cycle (R122, R145, R147, R175, R269): every act performed, writes before reads. -/

namespace Sys2Proof.Machine

/-! ## Order within a cycle -/

/-- Places of the acts of one cycle: MTS and CHKERR's clearing first (R162, R365), then the other writes, then lanes
reseeded from the cells and mappings revoked in a replayed span, and reads at the end. -/
def Act.rank : Act → Nat
  | .wsys .. => 0
  | .chkclr .. => 0
  | .reseed .. => 2
  | .revoke .. => 2
  | a => if a.reads then 4 else 1

/-- Entry `a` comes before `b`: by rank, then by the issue order of their words (R147). -/
def Entry.before (a b : Entry) : Bool :=
  if a.act.rank = b.act.rank then a.seq < b.seq else a.act.rank < b.act.rank

/-- Entries in order; equal ones keep their order. -/
def sortEntries (es : List Entry) : List Entry :=
  es.foldr (fun x ys => ys.takeWhile (fun y => y.before x) ++ x :: ys.dropWhile (fun y => y.before x)) []

/-- A flag access waits for the flag phase of its cycle. -/
def Act.flagOf (c : Cluster) : Act → Option FlagOp
  | .flag d o => if c = d then some o else none
  | _ => none

def Act.isFlag : Act → Bool
  | .flag .. => true
  | _ => false

/-! ## The acts -/

/-- A loaded element as LDS and LDSX write it (R184). -/
def loadedWord (bs : List Byte) (sz : Nat) (sx : Bool) : Word :=
  let v := ofBytes bs
  let w := 8 * 2 ^ sz
  if sx && v ≥ 2 ^ (w - 1) then BitVec.ofInt 64 ((v : Int) - 2 ^ w) else BitVec.ofNat 64 v

/-- Bytes padded with zeros to the length of pieces. -/
def padTo (ps : List (Nat × Nat)) (bs : List Byte) : List Byte :=
  bs ++ List.replicate ((ps.map (·.2)).foldl (· + ·) 0 - bs.length) 0

/-- A handle written while its translation is being installed: the later word's write stands (R147, R205). -/
def Core.overInstall (c : Core) (n : BitVec 5) : Core :=
  { c with freeze := c.freeze.map fun f => match f with
      | .install m va => if m = n then .installOver va else f
      | _ => f }

/-- Register writes of one cluster. -/
def Core.onCl (c : Core) (k : Cluster) (f : ClusterSt → ClusterSt) : Core := c.setCl k (f (c.cl k))

/-- An act of the core alone, performed on core cycle `t`; acts that it puts on the timeline keep the issue order of
its word. -/
def Core.performAct (c : Core) (t : Nat) (e : Entry) : Core :=
  let push := fun (c : Core) (due : Nat) (a : Act) => { c with timeline := ⟨due, e.seq, a⟩ :: c.timeline }
  match e.act with
  | .wg k n v => c.onCl k fun x => x.writeG n v
  | .wgFlag k n v => c.onCl k fun x => x.writeG n v
  | .wa k n v => c.onCl k fun x => x.writeA n v
  | .wp k n v => c.onCl k fun x => x.writeP n v
  | .wy n v => c.writeY n v
  | .wk n v => c.writeK n v
  | .wcb n v => c.writeCb n v
  | .wh n h => (c.writeH n h).overInstall n
  | .wsys r v => c.writeSys r v
  | .wtok n k => c.writeQ n k
  | .wr m ps bs => c.writePieces m (takePieces ps bs)
  | .move src sp dst dp bit =>
      let r := c.readPieces src bit sp
      push r.2 (t + 1) (.wr dst dp (padTo dp r.1))
  | .load g addr sz sx =>
      let r := c.readMem .ls cirPSC addr (2 ^ sz)
      push r.2 (t + 2) (.wg .S g (loadedWord r.1 sz sx))
  | .vec j i p => c.vecAct j i p t e.seq
  | .vout j => c.voutAct j t e.seq
  | .prow p isB i => c.prowAct p isB i t
  | .pcomp p => c.pcompAct p t e.seq
  | .pdone p rows r => c.pdoneAct p rows r
  | .restore r pre => c.restoreAct r pre
  | .rcomp r => c.rcompAct r t e.seq
  | .rdone r rows => c.rdoneAct r rows
  | .reseed mr d => c.reseed mr d
  | .fix mr d row col addr bs two pl => c.fixAct mr d row col addr bs two pl
  | .alloc first count on zero => c.allocBanks first count on zero
  | .owners b o => { c with owner := c.owner.setIfInBounds b o }
  | .ftab n v => { c with ftab := c.ftab.set n.toNat v (by omega) }
  | .cbend b count eb src => { c with banks := c.banks.setIfInBounds b ⟨count, eb, false, src⟩ }
  | .cbsrc b src => { c with banks := c.banks.setIfInBounds b { c.banks.getD b default with source := src } }
  | .cbcmp id b x eb addr =>
      let r := c.readMem .cb cirPC (b * 32768 + 128 * x) eb
      let m := r.2.readMem .ls cirPM addr eb
      if r.1 = m.1 then m.2 else m.2.setBuf id x [1]
  | .cbans id p => push c (t + 1) (.wp .M p (!c.bufs.any fun b => b.1 = id))
  | .tols addr => c.tolsAct addr t e.seq
  | .chkclr v => { c with cir := c.cir &&& ~~~v }
  | .region ix r => { c with regions := c.regions.set ix.toNat r (by omega) }
  | _ => c

/-- A write of a g register by another word than the KICK that waits is kept, where it is the g that the KICK names, for the case that
the KICK is refused (R145, R343). -/
def Core.underKick (c : Core) (e : Entry) (k : Cluster) (n : BitVec 5) (v : Word) : Core :=
  let own := fun (o : KickOp) => e.seq = o.seq && e.due = o.writes
  { c with kick := c.kick.map fun o => if k = .S && n = o.g && !own o then { o with oldG := v } else o }

/-- An act with its effect on the whole part. -/
def State.perform (s : State) (t : Nat) (e : Entry) : State :=
  match e.act with
  | .xlate n va at_ => s.xlateAct n va at_
  | .patchRead id j => s.patchReadAct id j
  | .kickRead id n => s.kickReadAct id n
  | .unpin key h off units => s.unpinUnits key h off units
  | .revoke tenant p => { s with core := s.core.revoke tenant p }
  | .wg k n v => { s with core := (s.core.performAct t e).underKick e k n v }
  | .wgFlag k n v => { s with core := (s.core.performAct t e).underKick e k n v }
  | _ => { s with core := s.core.performAct t e }

/-- The flag phase of a core cycle: accesses in cluster order, FWAIT's among them (R269, R271), each with the place in issue order of
its word (R147). -/
def State.flagPhase (s : State) (due : List Entry) (t : Nat) : State :=
  [Cluster.S, .L, .M, .W].foldl (fun s c =>
    let s1 := (due.filterMap fun e => (e.act.flagOf c).map (e.seq, ·)).foldl (fun s x => s.inPlace x.1 (·.flagAct c x.2)) s
    match (s1.core.cl c).wait with
    | some (.fwait o first) => if first ≤ t then s1.inPlace (s1.core.cl c).seqAt (·.flagPoll c o) else s1
    | _ => s1) s

/-- The word whose bytes a buffer keeps is still at work. -/
def Act.bufId : Act → Option Nat
  | .vec j _ _ => some j.id
  | .vout j => some j.id
  | .prow p _ _ => some p.id
  | .pcomp p => some p.id
  | .cbcmp id _ _ _ _ => some id
  | .cbans id _ => some id
  | .patchRead id _ => some (2 ^ 64 + id)
  | _ => none

/-- The units of core state that an act writes (R372). -/
def Act.units : Act → List Nat
  | .wr m ps _ => ps.flatMap fun p => unitsOf m p.1 p.2
  | .pdone p _ _ => p.rowUnits ++ p.preUnits
  | .restore r _ => r.prod.units
  | .rdone r _ => r.prod.rowUnits
  | .fix mr _ _ _ addr bs _ _ => unitsOf (destMem mr) addr bs.length
  | .alloc first count on zero => if on && zero then unitsOf .acc (destBase first) (Config.tileBytes * count) else []
  | _ => []

/-- Everything due on core cycle `t`, performed in order; what it writes counts in the phase of this cycle (R372). Of writes to the
same bytes on one cycle by parts of one word, the one that came onto the timeline later stands (DEDUCED, unsafe, log entry 71). -/
def State.performDue (s : State) (t : Nat) : State :=
  let due := (s.core.timeline.filter fun e => e.due ≤ t).reverse
  let rest := s.core.timeline.filter fun e => !(e.due ≤ t)
  let es := sortEntries (due.filter fun e => !e.act.isFlag)
  let early := es.filter fun e => !e.act.reads
  let late := es.filter fun e => e.act.reads
  let s1 := State.touchDue { s with core := { s.core with timeline := rest, made := [] } } (es.flatMap (·.act.units))
  let s2 := early.foldl (fun s e => s.perform t e) s1
  let s3 := s2.flagPhase due t
  let s4 := late.foldl (fun s e => s.perform t e) s3
  let c := s4.core
  let ids := c.timeline.filterMap fun e => e.act.bufId
  { s4 with core := { c with made := late, calendar := c.calendar.filter fun a => t ≤ a.cycle
                             bufs := c.bufs.filter fun b => ids.contains b.1 } }

/-- The shadow context's own register writes that fall due on a trunk cycle (R352). -/
def Shadow.performDue (k : Shadow) (trunk : Nat) : Shadow :=
  let put := fun (k : Shadow) (a : Nat × Act) =>
    match a.2 with
    | .wg _ n v => k.writeG n v
    | .wp _ n v => k.writeP n v
    | _ => k
  ((k.pend.filter fun a => a.1 ≤ trunk).foldl put { k with pend := k.pend.filter fun a => !(a.1 ≤ trunk) })

end Sys2Proof.Machine
end

