-- ==== Sys2Proof/Machine/Faults.lean ====
section
/-! DEFINITION. Returning from a fault (ERET, R141, R347), the fault buffer of the die and its way to the host (R355, R356),
and the freeze view of a debugger (R362, R363). -/

namespace Sys2Proof.Machine

/-! ## ERET (R123, R347, R348) -/

/-- An operation has been answered by its slice (R241, R242). -/
def State.opSettled (s : State) (id : Nat) : Bool :=
  s.allOps.all fun o => o.id ≠ id || match o.state with | .answered _ => true | _ => false

/-- The condition that the rule of a stall names holds (R215, R219, R241, R242, R341). -/
def State.stallOver (s : State) : StallHold → Bool
  | .until t => t ≤ s.trunk
  | .copy id => s.unitsReady id
  | .patch id => s.opSettled id
  | .kick id => s.core.kick.all fun k => k.id ≠ id

/-- ERET may leave the handler on this trunk cycle. -/
def State.eretReady (s : State) : Bool :=
  match s.core.handling with
  | some f => f.hold.all s.stallOver
  | none => true

/-- ERET is a word of the shadow context alone (R141); it is held until the condition of a stall holds (R347). -/
def execEret (hd : Head) (s : State) :=
  runWordIf 0x11 0 .both (fun i _ => i.shadow) hd (fun _ s => if s.eretReady then .ok s.leaveHandler else .hold) s

/-! ## The fault buffer (R355, R356) -/

/-- FAULT BUFFER OVERFLOW: one core of the die is modelled, and it is held or not (R356). -/
def State.overflowInfo (s : State) : FaultInfo :=
  ⟨0x7F, .info, 15, ⟨.S, 0, 0⟩, false, 0, if s.core.heldRec.isSome then 1 else 0, BitVec.ofNat 64 s.infoDropped, none⟩

/-- The overflow record is written, and the count of information records starts again (R356). -/
def State.writeOverflow (s : State) : State := { (s.pushRec (s.record s.overflowInfo false false)) with infoDropped := 0 }

/-- The held record is written, and its core enters the handler, or the freeze view for a breakpoint under a debugger.
A context that has stopped stays as it is. -/
def State.writeHeld (s : State) (r : FRec) (f : FaultInfo) : State :=
  let s1 := State.pushRec
    { s with overflow := false, overflowTold := false
             core := { s.core with heldRec := none, freeze := s.core.freeze.filter (· ≠ Freeze.buffer) } } r
  if s1.core.freeze.contains .stopped then s1
  else if f.code = 0xA0 && s1.attached then
    { s1 with core := { s1.core with freeze := .debug :: s1.core.freeze, handling := some f } }
  else s1.enterAfterRecord f

/-- An entry has been freed: the overflow record is written first, also where only information records found the buffer full,
and then the held record (R356). -/
def State.entryFreed (s : State) : State :=
  match s.core.heldRec with
  | none => if s.infoDropped = 0 then s else s.writeOverflow
  | some (r, f) => if s.overflowTold then s.writeHeld r f else { s.writeOverflow with overflowTold := true }

/-- The tenant of a record. -/
def recTenant (r : FRec) : BitVec 4 := field r.w1 48 4

/-- The fault queue of a record's tenant is open (R387). -/
def State.faultQueueOpen (s : State) (r : FRec) : Bool := s.tenants.any fun t => t.id = recTenant r && t.created && s.hacc

/-- FAULT_QUEUE_COPY: the oldest record whose tenant's fault queue is open goes to that queue, and its entry is freed; where none is
open, the copy is made later (R355, R387; that a record of a closed queue keeps none of another tenant back DEDUCED, unsafe, log entry
75). -/
def execFaultQueueCopy (s : State) : Host.Outcome State Fault Refusal :=
  .next (match s.faultBuf.find? s.faultQueueOpen with
    | some r =>
        let s1 := s.setTenant (recTenant r) fun t => { t with faults := r :: t.faults }
        State.entryFreed { s1 with faultBuf := s.faultBuf.erase r }
    | none => if s.faultBuf = [] then s else s.copyLater)

/-! ## The freeze view (R362, R363) -/

/-- The core leaves the freeze view; faults that were queued meanwhile are taken before any word issues (R348). -/
def State.leaveView (s : State) (steps : Option Nat) : State :=
  let s1 := { s with core := { s.core with freeze := s.core.freeze.filter (· ≠ Freeze.debug), handling := none, stepRem := steps } }
  if s1.core.freeze = [] then s1.takeQueued else s1

/-- The core is held in the freeze view. -/
def State.inView (s : State) : Bool := s.core.freeze.contains .debug

/-- DEBUG_RESUME: as ERET (R363). -/
def execDebugResume (s : State) : Host.Outcome State Fault Refusal := .next (if s.inView then s.leaveView none else s)

/-- DEBUG_STEP: the core runs for exactly `n` core cycles, from 1 to 65,535 (R363). -/
def execDebugStep (n : BitVec 16) (s : State) : Host.Outcome State Fault Refusal :=
  .next (if s.inView && n ≠ 0 then s.leaveView (some n.toNat) else s)

/-- DEBUG_STEP_EXPIRY: the core freezes again before any word of the cycle (R363). -/
def execDebugStepExpiry (s : State) : Host.Outcome State Fault Refusal :=
  .next (if s.core.stepRem = some 0 then
      { s with core := { s.core with stepRem := none, freeze := .debug :: s.core.freeze } }
    else s)

/-- A write of the debugger, on the frozen cycle; one to a locked line is refused (R363). -/
def State.debugWrite (s : State) : DebugWrite → State
  | .y n v => { s with core := s.core.writeY n v }
  | .k n v => { s with core := s.core.writeK n v }
  | .cb n v => { s with core := s.core.writeCb n v }
  | .sys r v => { s with core := s.core.writeSys r v }
  | .shadowG n v => { s with core := { s.core with shadow := s.core.shadow.writeG n v } }
  | .shadowP n v => { s with core := { s.core with shadow := s.core.shadow.writeP n v } }
  | .ls a b =>
      if a < Config.lsBytes && !s.core.lockedLines.contains (a / 64) then { s with core := s.core.writeMem .ls a [b] } else s

/-- DEBUG_WRITE_STATE (R363). -/
def execDebugWriteState (w : DebugWrite) (s : State) : Host.Outcome State Fault Refusal :=
  .next (if s.inView then s.debugWrite w else s)

end Sys2Proof.Machine
end

