-- ==== Sys2Proof/Machine/Issue.lean ====
section
/-! DEFINITION. The steps by which clusters come to issue: the next word decoded (R72, R108), waits that end (R109),
sections left and entered (R81, R114, R118), joined quartets (R115, R116), and quiet points (R124 to R131). -/

namespace Sys2Proof.Machine

/-! ## The next word (R57, R72, R79, R108) -/

/-- The word that a cluster is to issue. -/
def State.fetch (s : State) (c : Cluster) : IWord :=
  let k := s.core.cl c
  planeWord s.activePlane k.hdr k.word.toNat

/-- The word that the shadow context is to issue. -/
def State.fetchShadow (s : State) : IWord := planeWord s.activePlane s.core.shadow.hdr s.core.shadow.word.toNat

/-- The fault of a word that does not decode (R73, R74). -/
def decodeInfo (f : DecodeFault) (at_ : Place) : FaultInfo :=
  match f with
  | .zeroWord => ⟨0x02, .precise, 8, at_, false, 0, 0, 0, none⟩
  | .illegal r o fn low => ⟨0x01, .precise, 8, at_, false, illegalStatus r o fn low, 0, 0, none⟩

/-- A precise fault of the control unit. -/
def controlInfo (code : Nat) (at_ : Place) (status : BitVec 32) : FaultInfo :=
  ⟨code, .precise, 9, at_, false, status, 0, 0, none⟩

/-- SECTION HEADER with the section's number as read (R79). -/
def headerInfo (c : Cluster) (h : Header) (reason : Nat) : FaultInfo :=
  controlInfo 0x03 ⟨c, h.secno, 0xFFF⟩ (BitVec.ofNat 8 reason ++ 0#24)

/-- A precise fault that an engine has found on the check cycle of a word of this cluster (R347). -/
def State.checkFault (s : State) (c : Cluster) : Option FaultInfo :=
  s.core.faultQ.find? fun f => f.kind = .precise && f.at_.cl = c

/-- JOIN MISMATCH status 2: the members' words differ in IDLE (R116). -/
def State.idleMismatch (s : State) : Option FaultInfo :=
  let idle := fun c => fieldN (s.fetch c) 78 6
  if s.joined .S && [Cluster.L, .M, .W].any fun c => idle c ≠ idle .S then
    some (controlInfo 0x06 ⟨.S, s.core.s.sec, s.core.s.word⟩ 2)
  else none

/-- A cluster of the running core decodes its next word; it issues in the next step. A joined word of S whose IDLE differs from the
members' raises JOIN MISMATCH status 2 also where it fails decode (R116; DEDUCED, unsafe, log entry 62). -/
def State.expire (s : State) (c : Cluster) : State :=
  match s.checkFault c with
  | some f => State.raise { s with core := { s.core with faultQ := s.core.faultQ.erase f } } f
  | none =>
      match if c = .S then s.idleMismatch else none with
      | some f => s.raise f
      | none =>
          match decodeFor c (s.fetch c) with
          | .ok _ => { s with core := { s.core with issuing := some c } }
          | .error e => s.raise (decodeInfo e ⟨c, (s.core.cl c).sec, (s.core.cl c).word⟩)

/-- The shadow context checks the header of a section that it has entered, and decodes its next word (R352, R354). -/
def State.expireShadow (s : State) : State :=
  let sh := s.core.shadow
  let h := headerAt s.activePlane sh.hdr
  let r := if sh.unchecked then headerFault s.activePlane sh.hdr h else 0
  if r ≠ 0 then s.raise (headerInfo .S h r)
  else
    match decodeFor .S s.fetchShadow with
    | .ok _ => { s with core := { s.core with issuing := some .S, shadow := { sh with unchecked := false } } }
    | .error e => s.raise (decodeInfo e ⟨.S, sh.sec, sh.word⟩)

/-- IDLE_EXPIRY (R108). -/
def execIdleExpiry (c : Cluster) (s : State) : Host.Outcome State Fault Refusal :=
  .next (if s.core.shadow.active then s.expireShadow else s.expire c)

/-! ## Leaving a section (R81, R118) -/

/-- A pending steer as a cluster sees it on this cycle (R118). -/
def State.steerSeen (s : State) (c : Cluster) : Option SteerTo :=
  let k := s.core.cl c
  if k.steerAt < s.ctime then k.steer else none

/-- How a cluster leaves its section: the state, or a precise fault (R81, R118). -/
inductive Leave where
  | ok (k : ClusterSt)
  | fault (f : FaultInfo)

/-- What a walk gives: the section entered, or FETCH INTO DATA, or SECTION HEADER (R81). -/
def walkLeave (c : Cluster) (k : ClusterSt) (len : Nat) : WalkEnd → Leave
  | .found off h => .ok (k.enter off h 0)
  | .data => .fault (controlInfo 0x04 ⟨c, k.sec, BitVec.ofNat 12 len⟩ 1)
  | .planeEnd => .fault (controlInfo 0x04 ⟨c, k.sec, BitVec.ofNat 12 len⟩ 2)
  | .bad h r => .fault (headerInfo c h r)

/-- A cluster leaves its section, or, parked, obeys a steer (R118). A steer to park that a parked cluster sees clears STEER and retires
nothing, and a steer to a section that does not exist names the word at which the cluster stands, LEN of the section it leaves (R82;
both DEDUCED, unsafe, log entry 72). -/
def State.leaving (s : State) (c : Cluster) : Leave :=
  let k := s.core.cl c
  match s.steerSeen c with
  | some .park => .ok { (if k.mode = .parked then k else k.retire) with steer := none, mode := .parked }
  | some (.sec n) =>
      match findSection s.activePlane c n with
      | none => .fault (controlInfo 0x05 ⟨c, k.sec, k.word⟩ 1)
      | some (off, h) => .ok ({ k with steer := none }.enter off h 0)
  | none =>
      if k.mode = .parked then .ok k else walkLeave c k (s.header c).len (walkAfter s.activePlane c k.hdr)

/-- The shadow context falls through (R81, R353). -/
def State.leaveShadow (s : State) : State :=
  let sh := s.core.shadow
  let len := (headerAt s.activePlane sh.hdr).len
  match walkAfter s.activePlane .S sh.hdr with
  | .found off h =>
      { s with core := { s.core with shadow := { sh with sec := h.secno, hdr := off, word := 0, unchecked := true } } }
  | .data => s.raise (controlInfo 0x04 ⟨.S, sh.sec, BitVec.ofNat 12 len⟩ 1)
  | .planeEnd => s.raise (controlInfo 0x04 ⟨.S, sh.sec, BitVec.ofNat 12 len⟩ 2)
  | .bad h r => s.raise (headerInfo .S h r)

/-- SECTION_FALL_THROUGH (R118). -/
def execSectionFallThrough (c : Cluster) (s : State) : Host.Outcome State Fault Refusal :=
  .next (if s.core.shadow.active then s.leaveShadow
    else match s.leaving c with
      | .ok k => s.setCl c k
      | .fault f => s.raise f)

/-! ## Entering a section (R79, R113, R114) -/

/-- The header of the section that a cluster is entering fails R79. -/
def State.entryReason (s : State) (c : Cluster) : Nat :=
  if (s.core.cl c).unchecked then headerFault s.activePlane (s.core.cl c).hdr (s.header c) else 0

/-- ENTRY_WAIT_MET (R114). A section entry on the first cycle on which the cluster could issue makes a quiet point of S
possible; the start of a task or of a plane is none, nor is a JSEC to the section that S is in (R126). -/
def execEntryWaitMet (c : Cluster) (s : State) : Host.Outcome State Fault Refusal :=
  let k := s.core.cl c
  let h := s.header c
  .next (if s.entryReason c ≠ 0 then s.raise (headerInfo c h (s.entryReason c))
    else if s.core.waitsMet c h then
      s.setCl c { k with unchecked := false, mode := if h.sync then .quartetWait else .running
                         entered := k.unchecked && k.any && k.hdr ≠ k.leftHdr }
    else s)

/-! ## Joined quartets (R115, R116) -/

/-- JOIN MISMATCH but for status 2 (R116). Status 4 reads the state: a cluster that has been parked since the start of the task
raises it too, and where status 3 holds as well, 3 is reported (DEDUCED, unsafe, log entry 62). -/
def State.joinFault (s : State) : Option FaultInfo :=
  let cs := [Cluster.S, .L, .M, .W]
  let waiting := cs.filter fun c => (s.core.cl c).mode = .quartetWait
  let info := fun (status : BitVec 32) => some (controlInfo 0x06 ⟨.S, s.core.s.sec, 0xFFF⟩ status)
  if waiting.any fun c => waiting.any fun d => (s.core.cl c).sec ≠ (s.core.cl d).sec then info 3
  else if waiting ≠ [] && cs.any fun c => (s.core.cl c).mode = .parked || (s.core.cl c).mode = .halted then info 4
  else if waiting.length = 4 && cs.any fun c => (s.header c).len ≠ (s.header .S).len then info 1
  else none

/-- All four clusters wait for the same section (R115). -/
def Core.quartetReady (c : Core) : Bool := [c.s, c.l, c.m, c.w].all fun k => k.mode = .quartetWait

/-- JOINED_QUARTET_START: word 0 of all four issues on this cycle, or JOIN MISMATCH is raised (R115, R116). -/
def execJoinedQuartetStart (s : State) : Host.Outcome State Fault Refusal :=
  let run := fun (k : ClusterSt) => { k with mode := .running }
  let c := s.core
  .next (match s.joinFault with
    | some f => s.raise f
    | none =>
        if c.quartetReady then
          { s with core := { c with s := run c.s, l := run c.l, m := run c.m, w := run c.w } }
        else s)

/-! ## Waits that end (R109) -/

/-- The circumstances of a waiting word on the present cycle: it stands before the cluster's next word. -/
def State.waitIssue (s : State) (c : Cluster) : Issue :=
  let k := s.core.cl c
  let w := k.word - 1
  ⟨c, false, false, ⟨c, k.sec, w⟩, k.hdr, s.ctime, s.trunk, 0, fieldN (planeWord s.activePlane k.hdr w.toNat) 88 8, false⟩

/-- The condition of a wait tried on this cycle; one that an event of its own ends is held. -/
def State.condition (s : State) (c : Cluster) (w : Wait) : Res :=
  let t := s.ctime
  match w with
  | .untilTime x => if x ≤ t + 1 then .ok s else .hold
  | .steer d dst => steerStep d dst t s
  | .phdecl ix r => phdeclStep ix r t s
  | .phsw g tag => phswStep g tag false t s
  | .token q => qwaitStep q s
  | .check i seq => checkStep i seq (s.waitIssue c) s
  | .cbwait b => cbwaitStep b s
  | .access x => if x ≤ t then .ok s else .hold
  | .fwaitEnd x => if x ≤ t then .ok s else .hold
  | .pwait ops => pwaitStep ops s
  | .slot id => slotStep id s
  | .pfwait g tok => pfwaitStep g tok t s
  | .prefetch kind h off units tok key => pfGo kind h off units tok key s
  | .barw g b v scope first key => barwStep g b v scope first key s
  | .kwait name => kwaitStep name s
  | .swap g => swapStep g t s
  | .taskend => taskendStep (s.waitIssue c) s
  | .chkerr g clr => chkerrStep g clr t s
  | _ => .hold

/-- A wait tried on this cycle: its word issued when the wait began, so that what it writes has the word's place in issue order (R109,
R147). -/
def State.tryWait (s : State) (c : Cluster) (w : Wait) : Res :=
  match State.condition { s with core := { s.core with seq := (s.core.cl c).seqAt } } c w with
  | .ok s1 => .ok { s1 with core := { s1.core with seq := s.core.seq } }
  | r => r

/-- The state after a wait that goes on by itself: SWAP starts the clusters anew and TASKEND waits for its release. -/
def Wait.ends : Wait → Bool
  | .swap _ => false
  | .taskend => false
  | _ => true

/-- A waiting word that faults has had no effect: its cluster stands before it again (R347). -/
def State.unissue (s : State) (c : Cluster) : State :=
  let k := s.core.cl c
  s.setCl c { k with word := k.word - 1, mode := .running, wait := none, idleRem := 0, lret := k.lretAt, any := k.anyAt
                     runStart := k.runAt }

/-- WAIT_CONDITION_MET (R109). -/
def execWaitConditionMet (c : Cluster) (s : State) : Host.Outcome State Fault Refusal :=
  .next (match (s.core.cl c).wait with
    | none => s
    | some w =>
        match s.tryWait c w with
        | .ok s1 => if w.ends then s1.endWait c else s1
        | .fault code eng st x0 x1 => (s.unissue c).raise ((s.waitIssue c).info code eng st x0 x1 false)
        | .hold => s)

/-! ## QUIET and YIELD (R111, R129, R130) -/

/-- Cycles from an act's own cycle to the last write that it leads to. -/
def Act.tail : Act → Nat
  | .move .. => 1
  | .load .. => 2
  | .vec j i p => if j.marches && i < j.cnt && (j.dPart i p).2 ≠ 0 then j.op.latency else 0
  | .vout j => j.op.latency + (j.outChunks.length - 1)
  | .pcomp _ => 1
  | .rcomp _ => 1
  | .cbans .. => 1
  | .tols _ => 1
  | .flag _ o => if o.kind = 0 then 0 else 4
  | _ => 0

/-- The completion cycle of a started copy-in as it follows from the patches that there are: none is known where the home slice may
still stretch or delay a command that meets patches (R213, R214, R218). -/
def State.completionOf (s : State) (q : CopyCmd) : Option Nat :=
  match q.complete with
  | some x => some x
  | none => if q.h.tier = 2 || s.depthMet q = 0 then some (q.base + 4 * s.depthMet q) else none

/-- Cycles until the last pending write performs (R111); a copy-in whose completion is not known yet counts as the largest number
(DESIGN CHOICE, unsafe, log entry 81). -/
def State.pendingCycles (s : State) (t : Nat) : Nat :=
  let c := s.core
  let d := c.timeline.foldl (fun n e => if e.act.silent then n else max n (e.due + e.act.tail - t)) (c.spillFree - t)
  c.copyQ.foldl (fun n q =>
    if q.start.isNone || (q.done && q.complete.any (· < t)) then n
    else match s.completionOf q with | some x => max n (x - t) | none => max n 0xFFFF) d

/-- QUIET and YIELD: the core waits for a quiet point, with L, M and W held; in a joined section the quiet point is on
the issue cycle or SCHEDULE MISS cause 4 is raised (R129, R130). -/
def quietWord (yields : Bool) (i : Issue) (s : State) : Res :=
  if i.joined then
    if s.core.writePending i.t then schedMiss i 4 (min (s.pendingCycles i.t) 0xFFFF)
    else .ok (s.waitFor i (.quiet yields))
  else .ok (s.holdLMW.waitFor i (.quiet yields))

def execQuiet (hd : Head) (s : State) := runWord 0x0C 0 .noShadow hd (quietWord false) s

def execYield (hd : Head) (s : State) := runWord 0x0D 0 .noShadow hd (quietWord true) s

/-! ## Events and quiet points (R125 to R131, R358) -/

/-- An event counts for the context on the core: a debugger's halt request does so only while a debugger is attached
(R362). -/
def State.counts (s : State) (e : AsyncEvent) : Bool := e ≠ .debugHalt || s.attached

/-- Events that are pending on this cycle; none is taken during a debugger's steps (R125, R363). -/
def State.events (s : State) : List AsyncEvent :=
  if s.core.stepRem.isSome then [] else ((s.core.pending.filter (·.2 ≤ s.trunk)).map (·.1)).filter s.counts

/-- The event that is taken first (R125). -/
def firstEvent (es : List AsyncEvent) : Option AsyncEvent := [.debugHalt, .preempt, .interrupt].find? es.contains

/-- ASYNC_EVENT_ARRIVAL: pending from the next cycle on (R125). A second event of a kind that is pending already is one with it
(DEDUCED, unsafe, log entry 60). -/
def State.arrive (s : State) (e : AsyncEvent) : State :=
  if s.core.pending.any fun p => p.1 = e then s
  else { s with core := { s.core with pending := s.core.pending ++ [(e, s.trunk + 1)] } }

def execAsyncEventArrival (e : AsyncEvent) (s : State) : Host.Outcome State Fault Refusal := .next (s.arrive e)

/-- The S cluster waits at a QUIET or YIELD. -/
def ClusterSt.atQuiet (k : ClusterSt) : Bool := match k.wait with | some (.quiet _) => true | _ => false

/-- The S cluster would issue word 0 of a free section that it has entered on this cycle (R126); the start of a task is no
such entry (DEDUCED, unsafe, log entry 50). -/
def State.atEntry (s : State) : Bool :=
  let k := s.core.s
  k.entered && k.mode = .running && k.word = 0 && k.idleRem = 0 && !k.issuedNow && !s.joined .S && s.core.cursor = 0

/-- A HALT comes to its quiet point on this cycle: an event is pending (R131); on a replay, on the cycle on which it first did (R370). -/
def State.haltEnds (s : State) : Bool :=
  s.core.s.mode = .halted && s.mayEnd .halt && ((s.waitKept .halt).any (·.ended.isSome) || !s.events.isEmpty)

/-- A quiet point of R126 occurs, and something happens at it. -/
def State.quietNow (s : State) : Bool :=
  s.core.cursor ≤ 1 && !s.core.writePending s.ctime &&
    (s.core.s.atQuiet || s.haltEnds || (!s.events.isEmpty && s.atEntry))

/-- Every phase of the context on the core is final (R181, R358). -/
def State.allFinal (s : State) : Bool := s.core.swapTrunk.all fun x => x + Config.finality ≤ s.trunk

/-- Trunk cycle before which a save may not begin (R358). -/
def State.saveFrom (s : State) : Nat :=
  max (s.trunk + 1) (match s.core.swapTrunk with | some x => x + Config.finality | none => 0)

/-- A pre-emption is taken: the save begins when every phase is final (R358). -/
def State.takePreempt (s : State) : State :=
  let d := s.draw
  State.schedule { d.2 with core := { d.2.core with freeze := .event .preempt :: d.2.core.freeze } }
    (s.saveFrom + Config.saveDelay d.1) .contextSave

/-- One event is taken at a quiet point: the core freezes (R121, R128, R362). -/
def State.takeEvent (s : State) (e : AsyncEvent) : State :=
  let s1 := { s with core := { s.core with pending := s.core.pending.filter (·.1 ≠ e) } }
  match e with
  | .debugHalt => { s1 with core := { s1.core with freeze := .debug :: s1.core.freeze } }
  | .preempt => s1.takePreempt
  | .interrupt =>
      let d := s1.draw
      State.schedule { d.2 with core := { d.2.core with freeze := .event .interrupt :: d.2.core.freeze } }
        (s.trunk + 1 + Config.interruptDelay d.1) .coreResume

/-- A HALT or a YIELD has come to its quiet point, at which S stands from now on as at a QUIET, so that every pending event is
taken there (R125). The word after HALT issues no earlier than the cycle after (R109, R131). YIELD raises its interrupt, which
is pending at once (R130). -/
def State.quietReached (s : State) : State :=
  let k := s.core.s
  if k.mode = .halted then
    (s.noteEnd .halt).setCl .S { k with mode := .instrWait, wait := some (.quiet false)
                                        idleRem := if k.issuedNow then k.idleRem else max k.idleRem 1 }
  else if k.wait = some (.quiet true) then
    let p := s.core.pending.filter (·.1 ≠ .interrupt) ++ [(.interrupt, s.trunk)]
    State.setCl { s with core := { s.core with pending := p, yielded := true } } .S { k with wait := some (.quiet false) }
  else s

/-- With no event pending, a QUIET or YIELD ends at its quiet point, and the holding ends (R129). -/
def State.quietEnds (s : State) : State :=
  if s.core.s.atQuiet then State.endWaitNow { s with core := { s.core with holdOthers := false } } .S else s

/-- QUIET_POINT (R126). -/
def execQuietPoint (s : State) : Host.Outcome State Fault Refusal :=
  .next (if !s.quietNow then s
    else match firstEvent s.quietReached.events with
      | some e => s.quietReached.takeEvent e
      | none => s.quietReached.quietEnds)

end Sys2Proof.Machine
end

