-- ==== Sys2Proof/Machine/Units.lean ====
section
/-! DEFINITION. What engines, links, slices and releases do on their own: the events of R181, R204, R207, R209 to R222, R236 to
R247, R267 and R378 to R380. -/

namespace Sys2Proof.Machine

/-! ## Copies and links (R209 to R219, R375) -/

/-- COPY_COMMAND_START (R209). -/
def execCopyCommandStart (s : State) : Host.Outcome State Fault Refusal :=
  .next (match s.core.copyStarts s.ctime with
    | some q => s.startCopy q
    | none => s)

/-- DRAWER_UNIT_ARRIVAL of one unit of a command (R218). -/
def execDrawerUnitArrival (id unit : Nat) (s : State) : Host.Outcome State Fault Refusal :=
  .next (match s.core.copyQ.find? fun q => q.id = id with
    | none => s
    | some q =>
        match q.units.find? fun u => u.index = unit && !u.arrived && !u.stalled && !u.lost with
        | some u => s.unitArrives q u
        | none => s)

/-- COPY_IN_COMPLETION (R213). -/
def execCopyInCompletion (id : Nat) (s : State) : Host.Outcome State Fault Refusal :=
  .next (match s.core.copyQ.find? fun q => q.id = id && !q.done && q.complete.isSome with
    | some q => s.completeCopy q
    | none => s)

/-- LINK_GROUP_RETRAIN: the group drops out (R219). -/
def execLinkGroupRetrain (group : BitVec 4) (s : State) : Host.Outcome State Fault Refusal :=
  .next (if s.retraining.contains group.toNat || s.groupsDown.contains group.toNat then s
    else { s with retraining := group.toNat :: s.retraining })

/-- LINK_RETRAIN_COMPLETE: stalled units are requested again (R219). -/
def execLinkRetrainComplete (group : BitVec 4) (s : State) : Host.Outcome State Fault Refusal :=
  let s1 := { s with retraining := s.retraining.filter (· ≠ group.toNat)
                     agenda := s.agenda.filter fun e => e.2 ≠ Instr.linkGroupDown group }
  .next (s1.rerequest group.toNat)

/-- Every created tenant receives a completion. -/
def State.completeAll (s : State) (c : Completion) : State :=
  (s.tenants.filter (·.created)).foldl (fun s t => s.complete t.id c) s

/-- Stalled units of a group are completed with zeros and poison (R375). -/
def Core.loseUnits (c : Core) (group : Nat) : Core :=
  let hit := fun (u : DrawerUnit) => u.stalled && u.group = group
  let c1 := { c with copyQ := c.copyQ.map fun q =>
    { q with units := q.units.map fun u => if hit u then { u with stalled := false, lost := true } else u } }
  if c.copyQ.any fun q => q.units.any hit then c1.setCir cirPX else c1

/-- A link group is marked down: its stalled units are lost, its read slots go, and folds on their way to it are left undone (R375). -/
def State.groupGoes (s : State) (g : Nat) : State :=
  { s with groupsDown := g :: s.groupsDown.filter (· ≠ g)
           retraining := s.retraining.filter (· ≠ g)
           slots := s.slots.filter fun x => !(x.1 = g && field x.2.2 30 2 = 1)
           slotWrites := s.slotWrites.filter fun w => w.block % 16 ≠ g
           core := s.core.loseUnits g }

/-- LINK_GROUP_DOWN (R375). -/
def execLinkGroupDown (group : BitVec 4) (s : State) : Host.Outcome State Fault Refusal :=
  .next ((s.changing false (·.groupGoes group.toNat)).completeAll (.groupDown group.toNat))

/-! ## Stations (R382 to R386) -/

/-- One station changes. -/
def State.setStation (s : State) (n : BitVec 4) (f : Station → Station) : State :=
  { s with stations := s.stations.set n.toNat (f (s.stations[n.toNat]'(by omega))) (by omega) }

/-- Cycles of one millisecond and of one second (R14). -/
def millisecond : Nat := 1900000
def second : Nat := 1900000000

/-- Real time in cycles: the trunk counter and the bubbles (R14, R120). -/
def State.realTime (s : State) : Nat := s.trunk + s.bubble

/-- A packet that does not parse is dropped and counted; the 1,024th from one source within 1 ms closes it (R386). -/
def State.dropPacket (s : State) (h : PacketHead) : State :=
  let x := s.stations[h.station.toNat]'(by omega)
  let drops := (h.source, s.realTime) :: x.drops.filter fun d => s.realTime < d.2 + millisecond
  let s1 := s.setStation h.station fun x => { x with dropCount := x.dropCount + 1, drops := drops }
  if (drops.filter fun d => d.1 = h.source).length ≥ 1024 then
    (s1.setStation h.station fun x => { x with closed := h.source :: x.closed.filter (· ≠ h.source) }).schedule
      (s.trunk + second) (.sourceCloseExpiry (h.station, h.source))
  else s1

/-- The reason of R384 for which a packet is refused, 0 when it passes. -/
def State.packetReason (s : State) (h : PacketHead) : Nat :=
  match (s.stations[h.station.toNat]'(by omega)).contexts.find? fun c => c.tenant = h.tenant with
  | none => 1
  | some c => if c.key ≠ h.key then 2 else if !s.members.contains (c.partition, h.source) then 3 else 0

/-- An operation packet at its station: over a link that is up, from a source that is not closed, parsed and checked; what it
then does (R382 to R386). -/
def State.station (s : State) (h : PacketHead) (go : State → State) : State :=
  let x := s.stations[h.station.toNat]'(by omega)
  if !x.up || x.closed.contains h.source then s
  else if !h.wellFormed then s.dropPacket h
  else if s.packetReason h ≠ 0 then s
  else go s

/-! ## Prefetches (R222) -/

/-- PREFETCH_DONE of the operation that holds a token (R222). -/
def execPrefetchDone (tok : BitVec 4) (s : State) : Host.Outcome State Fault Refusal :=
  .next (match s.pfops.find? fun o => o.tok = tok && s.pfReady o with
    | some o => s.pfDone o
    | none => s)

/-! ## Patch operations (R236, R241, R247) -/

/-- An operation that has reached its slice by this trunk cycle. The operations of a saved context run on (R247). -/
def State.landed (s : State) (o : PatchOp) : Bool :=
  match o.state with
  | .flying x early => x ≤ s.trunk && (early ≤ s.ctime || !s.isOwn o)
  | _ => false

/-- PATCH_ARRIVAL (R236). -/
def execPatchArrival (id : Nat) (s : State) : Host.Outcome State Fault Refusal :=
  .next (match s.allOps.find? fun o => o.id = id && s.landed o with
    | some o => s.offer o
    | none => s)

/-- The record of a peer's patch (R230, R249, R382). A peer's core has a number that no core of this package has
(DESIGN CHOICE, unsafe, log entry 37). -/
def packetRecord (h : PacketHead) (p : PeerPatch) : PatchRec :=
  { tid := p.tid, tenant := h.tenant, name := p.name, kind := p.kind, ef := p.ef, sat := p.sat, first := p.first, rows := p.rows
    cols := p.cols, pitch := p.pitch, data := p.data, sf := p.sf, rs := p.rs, issuer := peerCore h.source
    digest := recDigest p.kind p.ef p.first p.rows p.cols p.pitch p.data, poisoned := false, folded := [] }

/-- What the slice does with a peer's patch: only a REMOTE tensor takes one, of the kinds of R244; one marked as a replay replaces a
record of its name in place (R243). -/
def State.peerOffer (s : State) (h : PacketHead) (p : PeerPatch) : SliceRes :=
  match s.tensorOf h.tenant p.tid with
  | none => .answer s .accepted
  | some t =>
      if !t.desc.remote || !PKind.remote p.kind then .answer s .accepted
      else s.arriveRecord h.tenant (s.homeOf t) p.replay (packetRecord h p)

/-- A peer's patch at its slice; a held one stays there, whatever becomes of its source at the station (R241, R242, R386). -/
def State.packetSlice (s : State) (h : PacketHead) (p : PeerPatch) : State :=
  let note := s.noting false fun x => (x.peerOffer h p).state
  match s.peerOffer h p with
  | .answer s1 _ => note s1
  | .hold s1 _ _ => let d := (note s1).draw; { d.2 with heldPackets := d.2.heldPackets ++ [(d.1, h, p)] }

/-- A held patch of a peer is taken, or takes a write slot, when it is offered now. -/
def State.packetMoves (s : State) (x : Nat × PacketHead × PeerPatch) : Bool :=
  let r := s.peerOffer x.2.1 x.2.2
  match r with
  | .answer _ _ => true
  | .hold _ st _ => r.moves s st

/-- PATCH_REOFFER: of an operation of this device, or of a peer's patch that a slice holds (R241). -/
def execPatchReoffer (id : Nat) (s : State) : Host.Outcome State Fault Refusal :=
  .next (match s.allOps.find? fun o => o.id = id && s.reoffers o with
    | some o => s.offer o
    | none => match s.heldPackets.find? fun x => x.1 = id && s.packetMoves x with
      | some x => State.packetSlice { s with heldPackets := s.heldPackets.erase x } x.2.1 x.2.2
      | none => s)

/-- The answer of an operation that has one, once a replay has come to its first cycle (R371). -/
def State.answerOf (s : State) (o : PatchOp) : Option Answer :=
  match o.state with
  | .answered a => if o.answerAt.all (· ≤ s.ctime) then some a else none
  | _ => none

/-- PATCH_ANSWER (R247). -/
def execPatchAnswer (id : Nat) (s : State) : Host.Outcome State Fault Refusal :=
  .next (match s.core.ops.find? fun o => o.id = id with
    | some o => match s.answerOf o with
      | some a => s.deliver o a
      | none => s
    | none => s)

/-! ## Translations (R204, R207) -/

/-- The translation entry of a page is installed. -/
def State.installPage (s : State) (p : Page) : State :=
  { s with pages := s.pages.map fun x => if x = p then { x with installed := true } else x }

/-- What an installation freeze installs: the handle to be written, none where a later word has written it, and the address. -/
def Freeze.installs : Freeze → Option (Option (BitVec 5) × Word)
  | .install n va => some (some n, va)
  | .installOver va => some (none, va)
  | _ => none

/-- TRANSLATION_INSTALL: the handle is written, unless a word issued after the XLATE has written it, and the core unfreezes; a
mapping revoked meanwhile gives an invalid handle (R147, R204, R207). -/
def execTranslationInstall (s : State) : Host.Outcome State Fault Refusal :=
  .next (match s.core.freeze.findSome? Freeze.installs with
    | none => s
    | some (n, va) =>
        let c := { s.core with freeze := s.core.freeze.filter fun f => f.installs ≠ some (n, va) }
        let put := fun (h : Handle) => match n with | some n => c.writeH n h | none => c
        match s.pageAt s.core.tenant va.toNat with
        | some p => State.installPage { s with core := put (pageHandle p) } p
        | none => { s with core := put .invalid })

/-- Keys of the copy commands of a context that have not completed, and of its patch operations without an answer. -/
def Core.copiesOpen (c : Core) : List (Nat × Nat) := (c.copyQ.filter fun q => !q.done).map (·.key)
def Core.patchesOpen (c : Core) : List (Nat × Nat) :=
  (c.ops.filter fun o => match o.state with | .answered _ => false | _ => true).map (·.key)

/-- The contexts of the core, each with its task: the running one and the saved ones. -/
def State.contexts (s : State) : List ((Nat × Nat) × Core) :=
  (s.task.map fun x => (x, s.core)).toList ++ s.saved.map fun x => (x.task, x.core)

/-- Copy commands, by task and key, that are not complete, whose phase is not final, or that a rollback would make again (R181, R207). -/
def State.copyStands (s : State) (k : (Nat × Nat) × (Nat × Nat)) : Bool :=
  (s.contexts.any fun x => x.1 = k.1 && x.2.copiesOpen.contains k.2) ||
    (s.task = some k.1 && (s.queueLog.contains k.2 || s.snaps.any fun n => n.core.copiesOpen.contains k.2))

/-- Patch operations, by task and key, without an answer. -/
def State.patchStands (s : State) (k : (Nat × Nat) × (Nat × Nat)) : Bool :=
  s.contexts.any fun x => x.1 = k.1 && x.2.patchesOpen.contains k.2

/-- The marker of a page on this cycle: what the tenant's contexts on the core have issued before it (R207). -/
def State.markerOf (s : State) (p : Page) : Marker :=
  let mine := s.contexts.filter fun x => x.2.tenant = p.tenant
  let kept := match s.task with
    | some x => if s.core.tenant = p.tenant then s.queueLog.map (x, ·) else []
    | none => []
  ⟨p.tenant, p.va, kept ++ mine.flatMap (fun x => x.2.copiesOpen.map (x.1, ·)), mine.flatMap fun x => x.2.patchesOpen.map (x.1, ·)⟩

/-- REVOCATION_MARKER: every handle built from the mapping becomes invalid, on this core cycle and on the same one of a replay
(R207, R208). -/
def execRevocationMarker (tenant : BitVec 4) (va : Nat) (s : State) : Host.Outcome State Fault Refusal :=
  .next (match s.pages.find? fun p => p.tenant = tenant && p.va = va && !p.revoked with
    | none => s
    | some p =>
        let mark := fun (x : Page) => if x = p then { x with revoked := true, installed := false } else x
        let again := fun (n : Snap) =>
          { n with core := { n.core with timeline := n.core.timeline ++ [⟨s.ctime, 0, .revoke tenant p⟩] } }
        let log := (s.core.phase, s.ctime, p) :: s.revLog
        State.mapCores { s with pages := s.pages.map mark, snaps := s.snaps.map again, revLog := log
                                markers := s.markerOf p :: s.markers } fun c => c.revoke tenant p)

/-- A revoked page may be released: of what was issued before its marker, every copy command has completed, its phase is final, and every
patch has its answer (R207). -/
def State.releasable (s : State) (p : Page) : Bool :=
  p.revoked && s.markers.all fun m =>
    !(m.tenant = p.tenant && m.va = p.va) || !(m.copies.any s.copyStands || m.patches.any s.patchStands)

/-- PAGE_RELEASE (R207). -/
def execPageRelease (tenant : BitVec 4) (va : Nat) (s : State) : Host.Outcome State Fault Refusal :=
  .next (match s.pages.find? fun p => p.tenant = tenant && p.va = va && s.releasable p with
    | some p => { s with pages := s.pages.erase p, markers := s.markers.filter fun m => !(m.tenant = tenant && m.va = va) }
    | none => s)

/-! ## Releases and phases (R181, R267, R372) -/

/-- RELEASE_COMPLETE (R267). -/
def execReleaseComplete (id : Nat) (s : State) : Host.Outcome State Fault Refusal :=
  .next (match s.core.releases.find? fun r => r.id = id && s.releaseReady r with
    | some r => (s.finishRelease r).afterRelease r
    | none => s)

/-- POD_RELEASE_ACK of a peer device (R267). -/
def execPodReleaseAck (head : PacketHead) (id : Nat) (s : State) : Host.Outcome State Fault Refusal :=
  .next (s.station head fun s => s.mapCores fun c =>
    let ack := fun (r : Release) =>
      if r.id = id && !r.acks.contains head.source then { r with acks := head.source :: r.acks } else r
    { c with releases := c.releases.map ack })

/-- A phase that has ended is final (R181). -/
def State.phaseDone (s : State) (n : Snap) : Bool := n.ended.any fun x => x + Config.finality ≤ s.trunk

/-- PHASE_FINAL: what was kept for the phases that are final now is dropped, and their space in the rollback area is free
(R181, R372). What a strike rollback to a phase that remains may still ask for stays: answers that came from its rollback point on, the
reads of copy-ins that were not done there, and what stood outside the core and in the rollback area (R371, R377). -/
def execPhaseFinal (s : State) : Host.Outcome State Fault Refusal :=
  let rest := s.snaps.filter fun n => !s.phaseDone n
  let keep := fun (p : Nat) => p = s.core.phase || rest.any fun n => n.phase = p
  let since := fun (t : Nat) => rest.any fun n => n.ctime ≤ t
  let late := fun (p t : Nat) => keep p || since t
  let open_ := fun (k : Nat × Nat) => keep k.1 || rest.any fun n => n.core.copyQ.any fun q => q.key = k && !q.done
  let gone := ((s.snaps.map (·.phase)).filter fun p => !keep p).map fun p => (s.seenFrom, p)
  .next { s with snaps := rest
                 log := s.log.filter fun x => late x.1.1 x.2.2
                 opLog := s.opLog.filter fun x => late x.1.1 x.2.2
                 sliceLog := s.sliceLog.filter fun x => late x.1.1 x.2.2.2
                 madeLog := s.madeLog.filter fun x => keep x.1
                 past := s.past.filter fun x => since x.1.1
                 freedLog := (s.freedLog ++ gone).filter fun x => since x.1.1
                 readLog := s.readLog.filter fun x => open_ x.1.1
                 waitLog := s.waitLog.filter fun x => keep x.phase
                 revLog := s.revLog.filter fun x => keep x.1
                 stallLog := s.stallLog.filter fun x => x.ctime = s.ctime || since x.ctime
                 queueLog := s.queueLog.filter open_
                 core := { s.core with touched := s.core.touched.filter fun x => keep x.1 } }

/-! ## Seal lines (R238) -/

/-- The records of an origin's tasks take the retire serials that its crown scheduler passes on (R235). -/
def State.stampPeer (s : State) (tenant : BitVec 4) (origin : BitVec 10) (serials : List (Nat × Nat)) : State :=
  let stamp := fun (r : PatchRec) =>
    if nameOrigin r.name = origin.toNat then
      match serials.find? fun x => x.1 = nameTask r.name with
      | some x => { r with rs := some x.2 }
      | none => r
    else r
  { s with tensors := s.tensors.map fun t => if t.tenant = tenant then { t with chain := t.chain.map stamp } else t }

/-- SEAL_LINE_UPDATE: a peer's seal line for a tenant, which comes as an operation packet; what it brings beside the line is
DEDUCED, unsafe, log entry 37. The device's own follows from its marks, so an update without a peer changes nothing. -/
def execSealLineUpdate (tenant : BitVec 4) (peer : Option (PacketHead × SealReport)) (s : State) :
    Host.Outcome State Fault Refusal :=
  .next (match peer with
    | none => s
    | some (h, r) =>
        if h.tenant ≠ tenant then s
        else s.station h fun s =>
          (s.setTenant tenant fun t =>
            { t with peerSeals := ⟨h.source, (r.line + 1).toNat, r.floor⟩ :: t.peerSeals.filter (·.origin ≠ h.source) }).stampPeer
              tenant h.source r.serials)

/-! ## The checkpoint copy (R378 to R380) -/

/-- The base bytes of a granule that are elements of the tensor, and whether a read met poison. -/
def State.baseGranule (s : State) (t : Tensor) (g : Nat) : List Byte × Bool :=
  let n := min 256 (t.count * t.size - 256 * g)
  match s.baseKey t g with
  | some k => ((List.range n).map fun i => s.gbyte (k + i), (List.range n).any fun i => s.gbad (k + i))
  | none => (List.replicate n 0, true)

/-- The retired-through mark of a record; an index of a walk point that has not been reached has not retired, task or none (R331,
R338). -/
def Launch.mark (l : Launch) (n : Nest) : Int :=
  let isOpen := fun (w c : Nat) => w ≥ n.reached || (n.isTask w c &&
    match l.task (n.taskIx w c) with | some t => t.state ≠ .retired | none => false)
  let ks := (List.range n.walks).flatMap fun w => ((List.range n.width).filter (isOpen w)).map fun c => n.taskIx w c
  match ks.min? with
  | some k => (k : Int) - 1
  | none => (n.ixbase + n.span : Int) - 1

/-- A shard is whole. -/
def State.shardDone (s : State) (tenant : BitVec 4) (tid : BitVec 24) : Bool :=
  s.shards.any fun x => x.1 = tenant && shardOf tid x.2 && !shardIncomplete x.2.head

/-- The magic value and the version of a manifest. -/
def manifestMagic : BitVec 32 := 0x4D534E46
def manifestVersion : Nat := 1

/-- A signed number of eight bytes. -/
def markBytes (x : Int) : List Byte := leBytes 8 (BitVec.ofInt 64 x).toNat

/-- One 48-byte entry of a manifest, and the bytes before the signature (R380). Where the fields stand within them is the model's
choice (DESIGN CHOICE, unsafe, log entry 69). -/
def entryBytes (e : BitVec 24 × Nat × BitVec 256) : List Byte := leBytes 8 e.1.toNat ++ leBytes 8 e.2.1 ++ beBytes 32 e.2.2.toNat

def Manifest.signed (m : Manifest) : List Byte :=
  leBytes 4 manifestMagic.toNat ++ leBytes 2 manifestVersion ++ leBytes 2 m.tenant.toNat ++ leBytes 4 m.entries.length ++
    leBytes 4 m.marks.length ++ m.marks.flatMap markBytes ++ m.entries.flatMap entryBytes

/-- A manifest as it is written to storage: r, then s, stand big-endian after the signed bytes. -/
def Manifest.bytes (m : Manifest) : List Byte := m.signed ++ beBytes 64 m.signature.toNat

/-- The manifest of a checkpoint whose shards are whole, signed with the attestation key (R380, R392). -/
def State.manifest (s : State) (tenant : BitVec 4) (tids : List (BitVec 24)) : Manifest :=
  let es := (s.shards.filter fun x => x.1 = tenant && tids.any fun i => shardOf i x.2).map fun x =>
    (x.2.head.tid.setWidth 24, x.2.payload.length, x.2.head.digest)
  let marks := (s.launches.filter fun l => l.tenant = tenant).flatMap fun l => l.nests.map l.mark
  let m : Manifest := ⟨tenant, marks, es, 0⟩
  { m with signature := Config.ecdsaSign s.attestKey (Config.sha256 m.signed) }

/-- Checkpoints of which every shard is whole are closed (R380). -/
def State.closeCheckpoints (s : State) : State :=
  let done := s.checkpoints.filter fun c => c.2.all fun t => s.shardDone c.1 t
  { s with checkpoints := s.checkpoints.filter fun c => !done.contains c
           manifests := s.manifests ++ done.map fun c => s.manifest c.1 c.2 }

/-- One granule of a tensor joins its shard; after the last, the snapshot ends and the shard is whole. -/
def State.copyGranule (s : State) (t : Tensor) (g : Nat) : State :=
  let b := s.baseGranule t g
  let last : Bool := g + 1 ≥ t.granules
  let put := fun (x : Shard) =>
    let p := x.payload ++ b.1
    (⟨{ x.head with flags := shardFlags (!last) (shardPoisoned x.head || b.2)
                    digest := if last then Config.sha256 p else x.head.digest }, p⟩ : Shard)
  let s1 := s.setTensor { t with snap := if last then none else some (g + 1) }
  let mine := fun (x : BitVec 4 × Shard) => if x.1 = t.tenant && shardOf t.desc.tid x.2 then (x.1, put x.2) else x
  let s2 := { s1 with shards := s1.shards.map mine }
  if last then s2.closeCheckpoints
  else
    let d := s2.draw
    d.2.schedule (s.trunk + 1 + Config.checkpointDelay d.1) (.checkpointCopyAdvance t.desc.tid)

/-- CHECKPOINT_COPY_ADVANCE (R378). A tensor id is installed for one tenant (R228). -/
def execCheckpointCopyAdvance (tid : BitVec 24) (s : State) : Host.Outcome State Fault Refusal :=
  .next (match s.tensors.find? fun t => t.desc.tid = tid with
    | none => s
    | some t => match t.snap with
      | some g => s.copyGranule t g
      | none => s)

end Sys2Proof.Machine
end

