-- ==== Sys2Proof/Machine/Crown.lean ====
section
/-! DEFINITION. What the crown scheduler does: walk points (R331), planes (R339), dispatch and task start (R142, R148, R334),
pre-emption, save and restore (R335, R358 to R361), retirement and completion (R336 to R338), kicks (R341), flag files (R344,
R360) and the crown take-over (R346). -/

namespace Sys2Proof.Machine

/-! ## Launch shape and images (R331, R339) -/

/-- The plane image of a launch at a virtual address; an address at which it brought none gives an empty plane (DEDUCED, unsafe,
log entry 12). -/
def imageAt (images : List (Nat × List Byte)) (va : Nat) : List Byte := ((images.find? fun x => x.1 = va).map (·.2)).getD []

def Launch.image (l : Launch) (va : Nat) : List Byte := imageAt l.images va

/-- The core of a logical index of a record: die slot and core slot within the launch's core set (R331). A record may be
narrower than its launch. -/
def Launch.coreOf (l : Launch) (n : Nest) (lc : Nat) : Nat := l.cores.getD (lc / n.ncore * l.ncore + lc % n.ncore) 0

/-- The gangs of a core set (R11). -/
def gangsOf (cores : List Nat) : List Nat := (cores.map (· / 8)).eraseDups

/-- Records set FLG (R328). -/
def Launch.usesFlags (l : Launch) : Bool := l.flg

/-! ## Walk points (R331) -/

/-- A record may be walked: a child once it stands in the pool (R341). -/
def State.walkable (s : State) (l : Launch) (n : Nest) : Bool :=
  !l.completed && !l.cancelled && match n.child with
    | none => true
    | some name => s.pool.contains (l.id, name)

/-- Tasks of a record that have been made and not dispatched. -/
def Launch.waiting (l : Launch) (nestIx : Nat) : List Task := l.tasks.filter fun t => t.nestIx = nestIx && t.state = .ready

/-- The next walk point of a record may be reached. -/
def State.walkDue (s : State) (l : Launch) (k : Nat) : Bool :=
  match l.nests[k]? with
  | some n => s.walkable l n && n.reached < n.walks && l.waiting k = []
  | none => false

/-- The tasks of a walk point. -/
def walkTasks (n : Nest) (k w : Nat) : List Task :=
  ((List.range n.width).filter (n.isTask w)).map fun c =>
    { nestIx := k, ix := n.taskIx w c, walk := w, lcore := c, state := .ready, sf := 0, lost := false }

/-- A walk point is reached: its tasks exist. -/
def Launch.reach (l : Launch) (k : Nat) : Launch :=
  match l.nests[k]? with
  | some n => { l with nests := l.nests.set k { n with reached := n.reached + 1 }, tasks := l.tasks ++ walkTasks n k n.reached }
  | none => l

/-- WALK_POINT_REACHED (R331). -/
def execWalkPointReached (launch record : Nat) (s : State) : Host.Outcome State Fault Refusal :=
  .next (match s.launchOf launch with
    | some l => if s.walkDue l record then s.setLaunch (l.reach record) else s
    | none => s)

/-- SPILLED_KICK_ENTERS_POOL (R341): the oldest record of the spill queue. -/
def execSpilledKickEntersPool (s : State) : Host.Outcome State Fault Refusal :=
  .next (match s.spillQ with
    | x :: xs => if s.poolFree > Config.kickReserve then { s with pool := s.pool ++ [x], spillQ := xs } else s
    | [] => s)

/-- KICK_PLACEMENT (R341); during a crown take-over the kick waits (R346), and on a replay for the cycle of its first answer
(R370). -/
def execKickPlacement (s : State) : Host.Outcome State Fault Refusal :=
  .next (if s.crownDown then
      match s.takeoverAt with
      | some x => s.schedule (max x s.trunk + 1) .kickPlacement
      | none => s
    else if s.core.kick.isSome && !s.mayEnd .kick then s.schedule (s.trunk + 1) .kickPlacement
    else s.placeKick)

/-! ## Planes (R339) -/

/-- The launch and image that a plane holds. -/
def State.tagOf (s : State) (plane : Nat) : Option (Nat × Nat) := s.planeOf.getD plane none

/-! ## Candidates for the core (R334, R335) -/

/-- Something that the core could run: a ready task, or a saved context by its place among the saved ones. -/
structure Cand where
  slot : Option Nat
  launch : Nat
  ix : Nat
  prio : Nat
  tenant : BitVec 4
  deriving DecidableEq, Repr

/-- A launch whose tasks may start: its flag files have been granted (R344). -/
def Launch.live (l : Launch) : Bool := !l.completed && (!l.usesFlags || l.granted)

/-- The ready tasks of one core (R334). -/
def State.readyTasks (s : State) (core : Nat) : List Cand :=
  (s.launches.filter fun l => l.live && !l.cancelled).flatMap fun l =>
    (l.tasks.filter fun t => t.state = .ready).filterMap fun t =>
      match l.nests[t.nestIx]? with
      | none => none
      | some n =>
          if l.coreOf n t.lcore = core && s.blockers ⟨l, n, t.walk, t.lcore⟩ = [] then
            some ⟨none, l.id, t.ix, n.prio, l.tenant⟩
          else none

/-- Saved contexts as candidates: they resume on a core of their gang with their logical index (R335, R360). -/
def State.savedCands (s : State) : List Cand :=
  s.saved.zipIdx.filterMap fun x =>
    match s.launchOf x.1.task.1 with
    | some l => if l.live then some ⟨some x.2, l.id, x.1.task.2, x.1.core.prio.toNat, l.tenant⟩ else none
    | none => none

/-- Core cycles of a tenant on a die, and its weight (R334). -/
def State.usage (s : State) (tenant : BitVec 4) (die : Nat) : Nat × Nat :=
  match s.tenants.find? fun t => t.id = tenant with
  | some t => (t.coreCycles.getD die 0, max 1 t.weight)
  | none => (0, 1)

/-- Candidate `a` comes before `b` on a die (R334). -/
def State.prefers (s : State) (die : Nat) (a b : Cand) : Bool :=
  if a.prio ≠ b.prio then a.prio > b.prio
  else if a.tenant = b.tenant then a.ix ≤ b.ix
  else
    let x := s.usage a.tenant die
    let y := s.usage b.tenant die
    if x.1 * y.2 ≠ y.1 * x.2 then x.1 * y.2 < y.1 * x.2 else a.tenant.toNat ≤ b.tenant.toNat

/-- The candidate that every other one gives way to. An exact tie goes to the lower tenant (DEDUCED, unsafe, log entry 40). -/
def State.choose (s : State) (die : Nat) (cs : List Cand) : Option Cand := cs.find? fun a => cs.all (s.prefers die a)

/-- What the modelled core would run next (R334). -/
def State.nextCand (s : State) : Option Cand := s.choose (dieOf s.self) (s.savedCands ++ s.readyTasks s.self)

/-- The modelled core is free for a task. -/
def State.coreFree (s : State) : Bool := s.task.isNone && s.core.freeze = []

/-- The image in which a ready task starts: its record's (R339). -/
def State.startImage (s : State) (launch ix : Nat) : Option (Nat × Nat) :=
  (s.launchOf launch).bind fun l => (l.task ix).bind fun t => (l.nests[t.nestIx]?).map fun n => (l.id, n.planeva)

/-- The image that the shadow plane should hold: the other image of the running task's record, or that of the next task when no
plane holds it (R339). -/
def State.planeWanted (s : State) : Option (Nat × Nat) :=
  if s.task.isSome then s.otherImage
  else
    match s.nextCand with
    | some c =>
        let tag := match c.slot with
          | none => s.startImage c.launch c.ix
          | some k => (s.saved[k]?).bind (·.image)
        if s.tagOf s.core.active = tag then none else tag
    | none => none

/-- The loader has something to do; a running task's other image is loaded during a crown take-over too (R346). -/
def State.loadDue (s : State) : Bool :=
  (s.task.isSome || !s.crownDown) && s.planeWanted.isSome && s.tagOf s.core.other ≠ s.planeWanted

/-- The image that the loader is to load. -/
def State.imageWanted (s : State) : List Byte :=
  match s.planeWanted with
  | some (l, va) => match s.launchOf l with | some x => x.image va | none => []
  | none => []

/-- PLANE_LOAD: the shadow plane holds the image (R339), a first image too (DEDUCED, unsafe, log entry 12). -/
def execPlaneLoad (s : State) : Host.Outcome State Fault Refusal :=
  .next (if s.loadDue then { s.fillPlane s.core.other s.imageWanted s.planeWanted with loadAt := none } else s)

/-- A plane holds what the next candidate needs. -/
def State.planeReady (s : State) : Bool := s.planeWanted.isNone || s.tagOf s.core.other = s.planeWanted

/-! ## Task start (R107, R121, R142, R148, R334, R366) -/

/-- k0 to k7 at task start (R148). -/
def startK (n : Nest) (w l ix : Nat) : Vector Word 8 :=
  let k := fun i => BitVec.ofNat 64 (n.levelRange w l i).1
  #v[k 0, k 1, k 2, k 3, k 4, k 5, BitVec.ofNat 64 ix, 0]

/-- KEND0 to KEND5 at task start (R148). -/
def startKend (n : Nest) (w l : Nat) : Vector Word 6 :=
  let e := fun i => BitVec.ofNat 64 (n.levelRange w l i).2
  #v[e 0, e 1, e 2, e 3, e 4, e 5]

/-- The registers of a task, over what a context carries from one task to the next (R334). -/
def Core.startRegs (c : Core) (trunk : Nat) (first : Bool) (l : Launch) (n : Nest) (t : Task) : Core :=
  let d := Core.fresh
  let base := { d with pcore := c.pcore, plane := c.plane, pending := c.pending, stepRem := c.stepRem }
  let kept :=
    if first then { base with clag := trunk }
    else
      let stays := fun (u : PoisonUnit) => match u with | .mRow .. => false | _ => true
      { base with clag := c.clag, shadow := c.shadow, ls := c.ls, acc := c.acc, scale := c.scale, cbmem := c.cbmem
                  poison := c.poison.filter stays, allocated := c.allocated, owner := c.owner, accLanes := c.accLanes
                  banks := c.banks, ftab := c.ftab, tol := c.tol }
  { kept with nest := BitVec.ofNat 16 n.nest, lcore := BitVec.ofNat 8 t.lcore, prio := BitVec.ofNat 3 n.prio
              tenant := l.tenant, k := startK n t.walk t.lcore t.ix, kend := startKend n t.walk t.lcore }

/-- What was kept for the phases of the last task on the core is dropped. -/
def State.dropLogs (s : State) : State :=
  { s with log := [], opLog := [], sliceLog := [], madeLog := [], past := [], freedLog := [], readLog := [], waitLog := []
           revLog := [], stallLog := [], queueLog := [], snaps := [], replayUntil := none }

/-- The core starts a task on this cycle; with a launch's first one there, its slots may change (R217). -/
def State.startTask (s : State) (l : Launch) (n : Nest) (t : Task) : State :=
  let first : Bool := s.contextLaunch ≠ some l.id
  let s := if first then s.assignSlots else s
  let flips : Bool := s.tagOf s.core.active ≠ some (l.id, n.planeva)
  let c := s.core.startRegs s.trunk first l n t
  let s1 := { s.dropLogs with core := { c with plane := if flips then !c.plane else c.plane }
                              task := some (l.id, t.ix), contextLaunch := some l.id, dispatchAt := none }
  let s2 := if first || flips then s1.planeEffect else s1
  (s2.startClusters 0 0).acquireFence 5

/-- A record's last task has been dispatched: its pool entry is freed (R341). -/
def State.freeEntry (s : State) (l : Launch) (k : Nat) : State :=
  match l.nests[k]? with
  | some n =>
      if n.reached ≥ n.walks && l.waiting k = [] then
        let s1 := s.journalise (.walked l.id k)
        match n.child with
        | some name => { s1 with pool := s1.pool.filter (· ≠ (l.id, name)) }
        | none => s1
      else s
  | none => s

/-- A task is given to a core: its start floor is taken (R235). -/
def State.dispatchTo (s : State) (l : Launch) (t : Task) (core : Nat) : State :=
  let sf := ((s.tenants.find? fun x => x.id = l.tenant).map (·.retired)).getD 0
  let run := fun (x : Task) => if x.ix = t.ix then { x with state := .running core, sf := sf } else x
  let l1 := { l with tasks := l.tasks.map run, started := true }
  ((s.setLaunch l1).journalise (.dispatched l.id t.ix core)).freeEntry l1 t.nestIx

/-- TASK_DISPATCH (R334). -/
def execTaskDispatch (launch ix core : Nat) (s : State) : Host.Outcome State Fault Refusal :=
  .next (match s.launchOf launch with
    | none => s
    | some l =>
        match l.tasks.find? fun t => t.ix = ix && t.state = .ready with
        | none => s
        | some t =>
            match l.nests[t.nestIx]? with
            | none => s
            | some n =>
                let s1 := s.dispatchTo l t core
                if core = s.self then s1.startTask l n t else s1)

/-! ## Pre-emption, save and restore (R335, R358 to R361) -/

/-- PREEMPTION_REQUEST (R335). -/
def execPreemptionRequest (s : State) : Host.Outcome State Fault Refusal := .next (s.arrive .preempt)

/-- A ready task of higher priority waits for the core (R335). -/
def State.preemptDue (s : State) : Bool :=
  !s.crownDown && s.task.isSome && s.retiring.isNone && !(s.core.pending.any fun p => p.1 = .preempt) &&
    !s.core.freeze.contains (.event .preempt) && (s.readyTasks s.self).any fun c => c.prio > s.core.prio.toNat

/-- What a save keeps of the accumulator: a free bank comes back as a fresh context has it (R278, R359; DEDUCED, unsafe,
log entry 30). -/
def Core.forgetFree (c : Core) : Core :=
  let free := fun (b : Nat) => b < 62 && !c.bankAllocated b
  let keep := fun (u : PoisonUnit) => match u with | .accRow b _ => !free b | _ => true
  { c with acc := c.acc.filter fun x => !free (x.1 / 16384), poison := c.poison.filter keep
           owner := c.owner.mapFinIdx fun b o _ => if free b then 0 else o
           accLanes := c.accLanes.mapFinIdx fun b l _ => if free b then .fresh else l }

/-- A save area is taken from the LPDDR-6 quota of a tenant, or given back (R358). What follows where the quota does not hold one R358
does not say: the save is made (DESIGN CHOICE, unsafe, log entry 67). -/
def State.takeArea (s : State) (tenant : BitVec 4) : State :=
  s.setTenant tenant fun t => { t with saveUsed := t.saveUsed + Config.saveBytes }
def State.giveArea (s : State) (tenant : BitVec 4) : State :=
  s.setTenant tenant fun t => { t with saveUsed := t.saveUsed - Config.saveBytes }

/-- CONTEXT_SAVE (R358, R359): the context leaves the core, with its queued faults and operations, for a save area. -/
def execContextSave (s : State) : Host.Outcome State Fault Refusal :=
  .next (match s.task with
    | some task =>
        if s.core.freeze.contains (.event .preempt) && s.allFinal then
          let c := s.core
          let x : Saved := ⟨{ c.forgetFree with freeze := [], pending := [], yielded := false }, s.ctime, task, s.tagOf c.active⟩
          { s.dropLogs.takeArea c.tenant with
              core := { Core.fresh with pcore := c.pcore, plane := c.plane, pending := c.pending, clag := s.trunk }
              saved := s.saved ++ [x], task := none, contextLaunch := none }
        else s
    | none => s)

/-- A bank whose contents a save has not kept: its slots are zero, as in a fresh context (DEDUCED, unsafe, log entry 30). -/
def Core.clearBank (c : Core) (b : Nat) : Core :=
  let other := fun (u : PoisonUnit) => match u with | .cbSlot x _ => x ≠ b | _ => true
  { c with cbmem := c.cbmem.filter fun x => x.1 / 32768 ≠ b, poison := c.poison.filter other }

/-- A bank reloaded from its source, COUNT entries of EBYTES bytes as its reload record has them (R297). -/
def Core.reloadBank (c : Core) (plane : List Byte) (b : Nat) : Core :=
  let k := c.banks.getD b ⟨0, 1, false, .none⟩
  let put := fun (c : Core) (bs : List Byte) => (List.range k.count).foldl (fun c e =>
    let v := (bs.drop (k.ebytes * e)).take k.ebytes
    c.writeMem .cb (b * 32768 + 128 * e) (v ++ List.replicate (128 - v.length) 0)) (c.clearBank b)
  match k.source with
  | .none => { c.clearBank b with banks := c.banks.setIfInBounds b { k with count := 0 } }
  | .ls a => let r := c.readMem .ls cirPC a (k.count * k.ebytes); put r.2 r.1
  | .plane sec => put c (preloadBytes plane sec (k.count * k.ebytes))

/-- A flag word that was waiting for its access makes it on the first restored cycle (R273). An FWAIT whose access has succeeded keeps its
write and the cycle on which it ends, four cycles after that access, and a releasing word whose release has not completed waits for it
and accesses its flag four cycles later, as without the save (R271; DEDUCED, unsafe, log entry 93). -/
def Core.resumeFlags (c : Core) (t : Nat) : Core :=
  let entry := fun (e : Entry) => match e.act with
    | .flag _ o => if o.acq || o.rel.isSome then { e with due := t } else e
    | _ => e
  let wait := fun (k : ClusterSt) => match k.wait with
    | some (.fwait o _) => { k with wait := some (.fwait o t) }
    | some (.access _) => { k with wait := some (.access t) }
    | _ => k
  { c with timeline := c.timeline.map entry, s := wait c.s, l := wait c.l, m := wait c.m, w := wait c.w }

/-- Answers that came while the context was away, in order of arrival (R247). -/
def State.deliverAll (s : State) : State :=
  s.core.ops.foldl (fun s o => match s.answerOf o with | some a => s.deliver o a | none => s) s

/-- Flag accesses made on the restored cycle leave the timeline. -/
def State.dropFlags (s : State) (t : Nat) : State :=
  { s with core := { s.core with timeline := s.core.timeline.filter fun e => !(e.act.isFlag && e.due ≤ t) } }

/-- CONTEXT_RESTORE in the order of R361. -/
def execContextRestore (slot : Nat) (s : State) : Host.Outcome State Fault Refusal :=
  .next (match s.saved[slot]? with
    | none => s
    | some x =>
        let s := s.assignSlots.giveArea x.core.tenant
        let flips : Bool := s.tagOf s.core.active ≠ x.image
        let plane : Bool := if flips then !s.core.plane else s.core.plane
        let c := { x.core with pcore := s.core.pcore, plane := plane, fij := 0, clag := s.trunk - x.ctime
                               pending := s.core.pending }
        let s1 := { s.dropLogs with saved := s.saved.eraseIdx slot, task := some x.task, contextLaunch := some x.task.1
                                    dispatchAt := none, core := c }
        let c1 := (List.range 4).foldl (fun c b => c.reloadBank s1.activePlane b) c
        let s2 := { s1 with core := c1.resumeFlags x.ctime }
        (s2.flagPhase (s2.core.timeline.filter fun e => e.act.isFlag && e.due ≤ x.ctime) x.ctime).dropFlags x.ctime
          |>.deliverAll |>.takeQueued)

/-- CORE_RESUME: the core goes on after an interrupt or a plane reload. After an interrupt the crown scheduler may pre-empt the
context in favour of another of its tenant and priority, if it is a YIELD's (R128, R130, R335, R368). -/
def execCoreResume (s : State) : Host.Outcome State Fault Refusal :=
  let c := s.core
  .next (if c.freeze.contains .reload then { s with core := { c with freeze := c.freeze.erase .reload } }
    else if c.freeze.contains (.event .interrupt) then
      let d := State.draw { s with core := { c with freeze := c.freeze.erase (.event .interrupt), yielded := false } }
      let other := (s.readyTasks s.self ++ s.savedCands).any fun x => x.tenant = c.tenant && x.prio = c.prio.toNat
      if c.yielded && other && Config.yieldPreempts d.1 then d.2.takePreempt else d.2
    else s)

/-! ## Retirement and completion (R235, R336 to R338, R366) -/

/-- Bits [8:1] and [15] of CIR: the poison summary (R366). -/
def poisonSummary : Word := 0x81FE

/-- A task retires: its serial, its mark, its patches' RS and its completion entry, with LOST where a patch of it was replaced after
another core had read it (R374). -/
def State.retireTask (s : State) (l : Launch) (ix : Nat) (cir0 : Word) : State :=
  let cir := if l.tasks.any fun t => t.ix = ix && t.lost then cir0 ||| BitVec.twoPow 64 cirLOST else cir0
  let rs := (((s.tenants.find? fun x => x.id = l.tenant).map (·.retired)).getD 0) + 1
  let s1 := s.setTenant l.tenant fun x => { x with retired := rs }
  let done := fun (t : Task) => if t.ix = ix then { t with state := .retired } else t
  let s2 := s1.setLaunch { l with tasks := l.tasks.map done, poisoned := l.poisoned || (cir &&& poisonSummary) != 0 }
  let own := fun (r : PatchRec) => nameTask r.name = ix && nameOrigin r.name = s.origin.toNat
  let stamp := fun (t : Tensor) =>
    if t.tenant = l.tenant then { t with chain := t.chain.map fun r => if own r then { r with rs := some rs } else r } else t
  State.complete ({ s2 with tensors := s2.tensors.map stamp }.journalise (.retired l.id ix rs)) l.tenant (.taskCir ix cir)

/-- The core is free: its tokens are FREE, its clusters stand still, and pending events are taken between tasks (R168, R336). -/
def State.freeCore (s : State) : State :=
  let c := s.core
  let stop := fun (k : ClusterSt) => { k with mode := .parked, wait := none, idleRem := 0, entered := false, steer := none }
  let held : Bool := s.attached && c.pending.any fun p => p.1 = .debugHalt
  { s.dropLogs with
      task := none, retiring := none
      core := { c with s := stop c.s, l := stop c.l, m := stop c.m, w := stop c.w
                       q := c.q.map fun t => { t with state := .free }
                       pending := [], freeze := if held then .debug :: c.freeze else c.freeze } }

/-- A task that has made its last release, on the modelled core or another one (R336, R346). -/
def State.retireOrHold (s : State) (l : Launch) (ix : Nat) (cir : Word) : State :=
  if s.crownDown then { s with heldRetirements := s.heldRetirements ++ [(l.id, ix, cir)] } else s.retireTask l ix cir

/-- The last release of a task on another core, which completes as the task retires: its own patches, by their names in the chains, and
what its core has observed, a free value (R267, R336). -/
def State.otherRelease (s : State) (l : Launch) (ix core n : Nat) : State :=
  let own := (s.tensors.filter fun t => t.tenant = l.tenant).flatMap fun t =>
    (t.chain.filter fun r => nameTask r.name = ix && nameOrigin r.name = s.origin.toNat).map fun r => (r.tid.toNat, r.name)
  let all := own ++ Config.otherObserved n
  { s with relHist := s.relHist ++ [⟨s.trunk, core, 5, (all ++ originals all).eraseDups, some (l.id, ix)⟩] }

/-- TASK_RETIREMENT (R336). -/
def execTaskRetirement (tenant : BitVec 4) (ix : Nat) (s : State) : Host.Outcome State Fault Refusal :=
  let runs := fun (t : Task) => t.ix = ix && match t.state with | .running _ => true | _ => false
  .next (match s.launches.find? fun l => l.tenant = tenant && l.tasks.any runs with
    | none => s
    | some l =>
        if s.retiring = some (l.id, ix) then (s.retireOrHold l ix s.core.cir).freeCore
        else if s.task = some (l.id, ix) then s
        else
          let d := s.draw
          let core := match (l.task ix).map (·.state) with | some (.running c) => c | _ => 0
          (d.2.otherRelease l ix core d.1).retireOrHold l ix (Config.otherCir d.1))

/-- The conditions of R337, with no event pending, on a cycle of the running core: a frozen context does not retire. A prefetch that
runs and a copy-in that has not started stand in no one's way: they are no pending writes (R124) and no operations (R246). -/
def State.haltDone (s : State) : Bool :=
  s.task.isSome && s.retiring.isNone && s.core.freeze = [] && s.core.s.mode = .halted &&
    !(s.core.pending.any fun p => p.2 ≤ s.trunk && s.counts p.1) && !s.core.writePending s.ctime &&
    (s.core.ops.all fun o => !o.outstanding) && [s.core.l, s.core.m, s.core.w].all fun k => k.mode = .parked

/-- HALT_RETIREMENT: the task ends as with TASKEND (R337, R373). -/
def execHaltRetirement (s : State) : Host.Outcome State Fault Refusal :=
  .next (if s.haltDone then
      let i := s.waitIssue .S
      let r := s.endPhase.newRelease i 5 .taskend (s.trunk + Config.finality)
      r.2.waitFor i (.taskendRelease r.1.id)
    else s)

/-- Every task of a launch and its children has retired (R338). -/
def Launch.allRetired (l : Launch) : Bool :=
  !l.completed && l.nests.all l.nestRetired && l.tasks.all fun t => t.state = .retired

/-- A completion of a launch, which answers its submission (R338, R388, R389). -/
def State.completeFor (s : State) (tenant : BitVec 4) (seq : BitVec 32) (c : Completion) : State :=
  let num := ((s.tenants.find? fun t => t.id = tenant).map (·.compSeq)).getD 0
  let answer := fun (t : Tenant) => { t with answers := ((seq, num, c) :: t.answers).filter fun a => (t.expected - a.1).toNat ≤ 32 }
  if s.hacc then (s.complete tenant c).setTenant tenant answer else s

/-- LAUNCH_COMPLETION: the launch is reported, and its flag files and barrier counters are released (R338). -/
def execLaunchCompletion (s : State) : Host.Outcome State Fault Refusal :=
  .next (match s.launches.find? Launch.allRetired with
    | some l =>
        let s1 := s.setLaunch { l with completed := true, granted := false, barriers := [] }
        let s2 := if l.granted then s1.journalise (.grant l.id false) else s1
        s2.completeFor l.tenant l.seq (if l.cancelled then .cancelled l.id else .launchDone l.id l.poisoned)
    | none => s)

/-! ## Flag files (R268, R344, R360) -/

/-- Two launches share a gang. -/
def gangsMeet (a b : Launch) : Bool := (gangsOf a.cores).any (gangsOf b.cores).contains

/-- The flag files of a launch's gangs are free. -/
def State.flagsFree (s : State) (l : Launch) : Bool :=
  l.flg && !l.granted && !l.completed && s.launches.all fun x => !(x.granted && !x.completed && gangsMeet x l)

/-- The flag file of the modelled core's gang belongs to a launch. -/
def State.ownGang (s : State) (l : Launch) : Bool := (gangsOf l.cores).contains (s.self / 8)

/-- FLAG_FILE_GRANT: every flag is zero, or as it was saved (R268, R344, R360). -/
def execFlagFileGrant (launch : Nat) (s : State) : Host.Outcome State Fault Refusal :=
  .next (match s.launchOf launch with
    | some l =>
        if s.flagsFree l then
          let s1 := (s.setLaunch { l with granted := true, savedFlags := none }).journalise (.grant l.id true)
          if s.ownGang l then
            match l.savedFlags with
            | some (f, h) => { s1 with flags := f, flagHist := h }
            | none => { s1 with flags := Vector.replicate 256 0, flagHist := [] }
          else s1
        else s
    | none => s)

/-- The modelled core holds a saved context of a launch and runs none of it (R360). -/
def State.holdsSaved (s : State) (l : Launch) : Bool :=
  (s.saved.any fun x => x.task.1 = l.id) && s.task.all fun x => x.1 ≠ l.id

/-- FLAG_FILE_SAVE: every core of the gang holds a saved context of the launch and none of them runs; for the other cores the event
itself says so (R360; DESIGN CHOICE, unsafe, log entry 4). -/
def execFlagFileSave (launch : Nat) (s : State) : Host.Outcome State Fault Refusal :=
  .next (match s.launchOf launch with
    | some l =>
        if l.granted && !l.completed && (!s.ownGang l || s.holdsSaved l) then
          (s.setLaunch { l with granted := false, savedFlags := some (s.flags, s.flagHist) }).journalise (.grant l.id false)
        else s
    | none => s)

/-! ## The crown take-over (R346) -/

/-- A journal entry whose check is correct. -/
def JEntry.good (e : JEntry) : Bool := e.check = journalCheck e.seq e.change

/-- Step 1: the journal up to its last entry with a correct check, oldest first. -/
def State.goodJournal (s : State) : List JEntry := (s.journal.dropWhile fun e => !e.good).reverse

/-- The modelled core can start a task of a record at once: it is free, and a plane holds the record's image (R334, R339). -/
def State.canStart (s : State) (l : Launch) (n : Nest) : Bool :=
  s.coreFree && (s.tagOf s.core.active = some (l.id, n.planeva) || s.tagOf s.core.other = some (l.id, n.planeva))

/-- Step 2: a journalled dispatch that no core holds is made again. One to the modelled core that cannot start it yet is made when it
can. -/
def State.redoDispatch (s : State) (e : JEntry) : State :=
  match e.change with
  | .dispatched l ix core => match s.launchOf l with
    | some x => match x.task ix with
      | some t =>
          if t.state ≠ .ready then s
          else if core ≠ s.self then s.dispatchTo x t core
          else match x.nests[t.nestIx]? with
            | some n => if s.canStart x n then (s.dispatchTo x t core).startTask x n t else s
            | none => s
      | none => s
    | none => s
  | _ => s

/-- Step 3: a pool entry that no journal entry accounts for is journalled; a KICK that waits for it is answered. -/
def State.rescanPool (s : State) (js : List JEntry) (x : Nat × Word) : State :=
  if js.any fun e => e.change = .placed x.1 x.2 then s
  else
    let s1 := s.journalise (.placed x.1 x.2)
    if s.core.kick.any (fun k => k.name = x.2) && s.contextLaunch = some x.1 then s1.answerKick else s1

/-- Step 4: the held retirements are made in their order, and dispatch resumes. -/
def State.retireHeld (s : State) : State :=
  s.heldRetirements.foldl (fun s x => match s.launchOf x.1 with
    | some l => s.retireTask l x.2.1 x.2.2
    | none => s) { s with crownDown := false, takeoverAt := none, heldRetirements := [] }

/-- The standby crown core takes over, in the order of R346. -/
def State.resumeCrown (s : State) : State :=
  let js := s.goodJournal
  let s1 := js.foldl State.redoDispatch { s with journal := js.reverse }
  (s1.pool.foldl (fun s x => s.rescanPool js x) s1).retireHeld

/-- CROWN_TAKEOVER: the active crown core traps and the standby begins, or the standby has taken over; a failure of the second
crown core stops dispatch and is reported. In this model a change and its journal entry are one step (DESIGN CHOICE, unsafe, log
entry 19). -/
def execCrownTakeover (s : State) : Host.Outcome State Fault Refusal :=
  .next (if s.crownDown && s.takeoverAt.any (· ≤ s.trunk) then s.resumeCrown
    else if s.crowns = 2 then
      let d := s.draw
      let at_ := s.trunk + 1 + Config.takeoverDelay d.1
      State.schedule { d.2 with crowns := 1, crownDown := true, takeoverAt := some at_ } at_ .crownTakeover
    else if s.crowns = 1 then State.completeAll { s with crowns := 0, crownDown := true, takeoverAt := none } .crownFailed
    else s)

end Sys2Proof.Machine
end

