-- ==== Sys2Proof/Machine/Host.lean ====
section
/-! DEFINITION. What passes between the host and the device: acceptance of launches (R228, R327, R330 to R332), submissions by
sequence number (R387 to R389), checkpoints (R378, R381), attestation (R392), the debugger (R362, R394), and the creation and
teardown of tenants (R228, R332, R383, R388). -/

namespace Sys2Proof.Machine

/-- HIVER's fixed fields (R387). -/
def dmaj : BitVec 4 := 1
def dmin : BitVec 4 := 0

/-! ## Launches (R228, R330 to R332) -/

/-- A descriptor as R228 allows it. -/
def descOk (d : TensorDesc) : Bool :=
  let code := d.fmt.toNat
  ((code ≤ 0xD && (Fmt.ofCode code).isSome) || code = 0x10) && d.baseva.toNat % 256 = 0 && d.reserved = 0

/-- The records of a launch as the walker will hold them, before their ranges are given. -/
def nestsOf (recs : List (List Word)) : List Nest :=
  recs.zipIdx.map fun x =>
    { words := x.1, nest := x.2, child := none, crit := bitAt (x.1.getD 0 0) 44, ixbase := 0, reached := 0, digest := 0 }

/-- The child range that a launch asks for (R328). -/
def cspanOf (ns : List Nest) : Nat := match ns with | n :: _ => fieldN (n.words.getD 11 0) 0 36 | [] => 0

/-- A top-level record: R330 reason 3, with IXBASE 0 and CSPAN in record 0 alone (R328; DEDUCED, unsafe,
log entry 13). -/
def topOk (ranges : List RangeBlock) (n : Nest) : Bool :=
  n.wellFormed && n.words.length = 32 && n.words.getD 1 0 = 0 && (n.nest = 0 || n.words.getD 11 0 = 0) &&
    (n.rblk = 0xFF || n.rblk < ranges.length)

/-- The home slice of a tensor that is being installed. -/
def State.homeOfDesc (s : State) (tenant : BitVec 4) (d : TensorDesc) : Nat :=
  s.homeOf ⟨d, tenant, none, [], []⟩

/-- A descriptor is refused (R228, R330 reason 2). -/
def State.descRefused (s : State) (tenant : BitVec 4) (d : TensorDesc) : Bool :=
  !descOk d ||
    match s.tensors.find? fun t => t.desc.tid = d.tid with
    | some t => t.tenant ≠ tenant || t.desc ≠ d
    | none => (s.tensors.filter fun t => s.homeOf t = s.homeOfDesc tenant d).length ≥ Config.sliceDescs

/-- A descriptor installed, unless it is already. -/
def State.installDesc (s : State) (tenant : BitVec 4) (d : TensorDesc) : State :=
  if s.tensors.any fun t => t.desc.tid = d.tid then s else { s with tensors := s.tensors ++ [⟨d, tenant, none, [], []⟩] }

/-- The descriptors of a launch one after another: none when one is refused. -/
def State.installAll (s : State) (tenant : BitVec 4) : List TensorDesc → Option State
  | [] => some s
  | d :: ds => if s.descRefused tenant d then none else (s.installDesc tenant d).installAll tenant ds

/-- Shape checks of a record (R330 reason 4). -/
def shapeFits (share : Nat) (n : Nest) : Bool := n.shapeOk && n.width ≤ share && !(n.flg && n.ncore % 8 ≠ 0)

/-- An image that a record names is missing or refused (R330 reason 1). -/
def imageRefused (q : LaunchReq) (va : Nat) : Bool := !(q.images.any fun x => x.1 = va) || planeRefused (imageAt q.images va)

/-- The dies and the cores on each that a launch needs: the most that a record of it asks for, in whole gangs with FLG (R331;
DEDUCED, unsafe, log entry 13). -/
def launchShape (ns : List Nest) : Nat × Nat :=
  let c := (ns.map Nest.ncore).foldl max 0
  ((ns.map Nest.ndie).foldl max 0, if ns.any Nest.flg then (c + 7) / 8 * 8 else c)

/-- A core set as R331 has it: `ncore` cores on each of `ndie` dies, dies and cores in rising physical order, and with FLG whole
gangs. -/
def coreSetOk (ndie ncore : Nat) (flg : Bool) (cs : List Nat) : Bool :=
  let dies := (List.range ndie).map fun d => dieOf (cs.getD (d * ncore) 0)
  cs.length = ndie * ncore && cs.all (· < 192) && (cs.zip cs.tail).all (fun x => x.1 < x.2) && dies.eraseDups.length = ndie &&
    (List.range cs.length).all (fun i => dieOf (cs.getD i 0) = dies.getD (i / ncore) 0) &&
    (!flg || cs.all fun c => (List.range 8).all fun i => cs.contains (c / 8 * 8 + i))

/-- The core set of a launch: the one that the crown scheduler gives it, or the lowest one of its shape where that is none (R331;
DESIGN CHOICE, unsafe, log entry 43). -/
def coreSet (shape : Nat × Nat) (flg : Bool) (cs : List Nat) : List Nat :=
  if coreSetOk shape.1 shape.2 flg cs then cs
  else (List.range shape.1).flatMap fun d => (List.range shape.2).map fun c => 48 * d + c

/-- The reason for which a launch is refused, 0 when it is accepted (R330). -/
def State.launchReason (s : State) (tenant : BitVec 4) (q : LaunchReq) : Nat :=
  let ns := nestsOf q.recs
  let me := s.tenants.find? fun t => t.id = tenant
  let share := (me.map (·.share)).getD 0
  let counter := (me.map (·.ixCounter)).getD 0
  if q.images.any (fun x => planeRefused x.2) || ns.any (fun n => imageRefused q n.planeva || (n.altva ≠ 0 && imageRefused q n.altva)) then 1
  else if (s.installAll tenant q.descs).isNone then 2
  else if !(ns.all (topOk q.ranges) && q.ranges.all rangeBlockOk) then 3
  else if !ns.all (shapeFits share) then 4
  else if ns.any fun n => field n.hdr 49 4 ≠ tenant then 5
  else if counter + (ns.map Nest.span).foldl (· + ·) 0 + cspanOf ns > 2 ^ 36 then 6
  else 0

/-- Consecutive ranges for the records (R332). -/
def giveRanges : List Nest → Nat → List Nest × Nat
  | [], x => ([], x)
  | n :: ns, x =>
      let r := giveRanges ns (x + n.span)
      ({ n with ixbase := x } :: r.1, r.2)

/-- A new launch number, which no launch has had since reset: each accepted launch has its own journal entry (R346). -/
def State.newLaunchId (s : State) : Nat := (s.launches.map (·.id)).foldl max s.jseq + 1

/-- An accepted launch (R228, R331, R332). -/
def State.acceptLaunch (s : State) (tenant : BitVec 4) (seq : BitVec 32) (q : LaunchReq) : State :=
  let s1 := (s.installAll tenant q.descs).getD s
  let counter := ((s.tenants.find? fun t => t.id = tenant).map (·.ixCounter)).getD 0
  let r := giveRanges (nestsOf q.recs) counter
  let cspan := cspanOf r.1
  let shape := launchShape r.1
  let l : Launch :=
    { id := s.newLaunchId, seq := seq, tenant := tenant, images := q.images, nests := r.1, ranges := q.ranges
      ndie := shape.1, ncore := shape.2, cores := coreSet shape (r.1.any Nest.flg) q.cores, tasks := [], childBase := r.2, cspan := cspan, flg := r.1.any Nest.flg, granted := false
      started := false, savedFlags := none, barriers := [], poisoned := false, cancelled := false, completed := false }
  let l1 := (List.range r.1.length).foldl Launch.reach l
  let s2 := { s1 with launches := s1.launches ++ [l1] }
  (s2.setTenant tenant fun t => { t with ixCounter := r.2 + cspan }).journalise (.accepted l.id)

/-! ## Submissions (R387 to R389) -/

/-- The head of a tenant's submission queue is read. -/
def State.readEntry (s : State) (tenant : BitVec 4) (e : SubEntry) : State :=
  s.setTenant tenant fun t => { t with inbox := if t.inbox.head? = some e then t.inbox.tail else t.inbox }

/-- The completion of an earlier submission is written again with its number (R389). -/
def Tenant.repost (t : Tenant) (seq : BitVec 32) : Tenant :=
  match t.answers.find? fun a => a.1 = seq with
  | some (_, k) => { t with posted := k :: t.posted }
  | none => t

/-- The number is that of an entry executed before, within the last 32 (R389). -/
def Tenant.hasRun (t : Tenant) (seq : BitVec 32) : Bool :=
  let back := (t.expected - seq).toNat
  0 < back && back ≤ 32 && back ≤ t.executed

/-- One submission entry: executed in sequence, answered again as a duplicate, or a gap; `go` is its execution (R389). With
HIVER.ACC 0 no queue is open (R387), and no entry is read while no crown core runs the scheduler (R346). -/
def State.submission (s : State) (tenant : BitVec 4) (e : SubEntry) (go : State → State) : State :=
  match s.tenants.find? fun t => t.id = tenant && t.created with
  | none => s
  | some t =>
      if !s.hacc || s.crownDown then s
      else
        let s1 := s.readEntry tenant e
        if e.seq = t.expected then
          go (s1.setTenant tenant fun t => { t with expected := t.expected + 1, executed := t.executed + 1 })
        else if t.hasRun e.seq then s1.setTenant tenant fun t => t.repost e.seq
        else s1.complete tenant (.gap t.expected e.seq)

/-- SUBMIT_LAUNCH (R327, R330). -/
def execSubmitLaunch (tenant : BitVec 4) (seq : BitVec 32) (q : LaunchReq) (s : State) : Host.Outcome State Fault Refusal :=
  .next (s.submission tenant ⟨seq, .launch q⟩ fun s =>
    match s.launchReason tenant q with
    | 0 => s.acceptLaunch tenant seq q
    | r => s.completeFor tenant seq (.launchRefused r))

/-- A cancelled launch starts no further task; those that have started run to their end (DESIGN CHOICE, unsafe, log
entry 16). -/
def Launch.cancel (l : Launch) : Launch :=
  { l with cancelled := true, nests := l.nests.map fun n => { n with reached := n.walks }
           tasks := l.tasks.filter fun t => t.state ≠ .ready }

/-- CANCEL_LAUNCH (R388). -/
def execCancelLaunch (tenant : BitVec 4) (seq : BitVec 32) (id : Nat) (s : State) : Host.Outcome State Fault Refusal :=
  .next (s.submission tenant ⟨seq, .cancel id⟩ fun s =>
    let s1 := match s.launches.find? fun l => l.id = id && l.tenant = tenant && !l.completed with
      | some l =>
          let s2 := s.setLaunch l.cancel
          { s2 with pool := s2.pool.filter (·.1 ≠ id), spillQ := s2.spillQ.filter (·.1 ≠ id) }
      | none => s
    s1.completeFor tenant seq (.cancelled id))

/-- TAKE_CHECKPOINT: a snapshot of each tensor (R378). -/
def execTakeCheckpoint (tenant : BitVec 4) (seq : BitVec 32) (tids : List (BitVec 24)) (s : State) :
    Host.Outcome State Fault Refusal :=
  .next (s.submission tenant ⟨seq, .checkpoint tids⟩ fun s =>
    let start := fun (s : State) (tid : BitVec 24) =>
      match s.tensorOf tenant tid with
      | some t => if t.snap.isSome then s else s.startSnap t
      | none => s
    let s1 :=
      if s.hasArea tenant then
        let s2 := tids.foldl start s
        { s2 with checkpoints := s2.checkpoints ++ [(tenant, tids.filter fun i => (s.tensorOf tenant i).isSome)] }
      else s
    s1.completeFor tenant seq .checkpointStarted)

/-- A number of little-endian, and of big-endian, bytes within a list. -/
def leAt (bs : List Byte) (off n : Nat) : Nat := ofBytes ((bs.drop off).take n)
def beAt (bs : List Byte) (off n : Nat) : Nat := ofBytes ((bs.drop off).take n).reverse

/-- A manifest read back from its bytes; none when they are no manifest (R380). -/
def readManifest (bs : List Byte) : Option Manifest :=
  let entries := leAt bs 8 4
  let marks := leAt bs 12 4
  let start := 16 + 8 * marks
  let entry := fun i => let o := start + 48 * i; (BitVec.ofNat 24 (leAt bs o 8), leAt bs (o + 8) 8, BitVec.ofNat 256 (beAt bs (o + 16) 32))
  if leAt bs 0 4 = manifestMagic.toNat && leAt bs 4 2 = manifestVersion && bs.length = start + 48 * entries + 64 then
    some { tenant := BitVec.ofNat 4 (leAt bs 6 2), marks := (List.range marks).map fun i => (BitVec.ofNat 64 (leAt bs (16 + 8 * i) 8)).toInt
           entries := (List.range entries).map entry, signature := BitVec.ofNat 512 (beAt bs (start + 48 * entries) 64) }
  else none

/-- A shard is whole and agrees with its entry and its header (R379, R381 step 2). The reserved bytes of a header are not looked at
(DEDUCED, unsafe, log entry 69). -/
def shardMatches (m : Manifest) (x : Shard) : Bool :=
  x.head.magic = shardMagic && x.head.version = shardVersion && !shardIncomplete x.head && Config.sha256 x.payload = x.head.digest &&
    m.entries.any fun e => e.1.setWidth 32 = x.head.tid && e.2.1 = x.payload.length && e.2.2 = x.head.digest

/-- The step of R381 at which a load is refused, 0 for none. Bytes that are no manifest have no signature (DEDUCED, unsafe, log
entry 69). -/
def State.loadReason (s : State) (tenant : BitVec 4) (c : Checkpoint) : Nat :=
  let target := fun (x : Shard) => s.tensorOf tenant (x.head.tid.setWidth 24)
  let m := readManifest c.manifest
  let signed := Config.sha256 (c.manifest.take (c.manifest.length - 64))
  if !(m.any fun m => (Config.trustedKeys tenant).any fun k => Config.ecdsaVerify k signed m.signature) then 1
  else if !(m.any fun m => c.shards.length = m.entries.length && c.shards.all (shardMatches m)) then 2
  else if !(c.shards.all fun x => (target x).any fun t =>
      t.desc.fmt.toNat = x.head.fmt.toNat && x.head.e0 = t.desc.e0 && x.head.e1 = t.desc.e1 && x.head.e2 = t.desc.e2 &&
        x.head.e3 = t.desc.e3) then 3
  else if c.shards.any (fun x => (target x).any fun t => !t.chain.isEmpty) ||
      s.launches.any (fun l => l.tenant = tenant && l.tasks.any fun t => match t.state with | .running _ => true | _ => false) then 4
  else 0

/-- One granule of a shard written into its tensor's base, in whichever page holds it (R381). -/
def State.loadGranule (s : State) (t : Tensor) (x : Shard) (g : Nat) : State :=
  match s.baseKey t g with
  | none => s
  | some k =>
      let bs := (x.payload.drop (256 * g)).take (min 256 (t.count * t.size - 256 * g))
      let s1 := s.gwrite k bs
      let bad := (List.range 4).filter fun i => 64 * i < bs.length && shardPoisoned x.head && Config.shardPoison (x.head.tid.setWidth 24) (4 * g + i)
      { s1 with gpoison := bad.map (k / 64 + ·) ++ s1.gpoison }

/-- A checkpoint's shards written into the target bases. -/
def State.loadShards (s : State) (tenant : BitVec 4) (c : Checkpoint) : State :=
  c.shards.foldl (fun s x => match s.tensorOf tenant (x.head.tid.setWidth 24) with
    | some t => (List.range t.granules).foldl (fun s g => s.loadGranule t x g) s
    | none => s) s

/-- LOAD_CHECKPOINT (R381). -/
def execLoadCheckpoint (tenant : BitVec 4) (seq : BitVec 32) (c : Checkpoint) (s : State) : Host.Outcome State Fault Refusal :=
  .next (s.submission tenant ⟨seq, .load c⟩ fun s =>
    match s.loadReason tenant c with
    | 0 => (s.loadShards tenant c).completeFor tenant seq .loadDone
    | r => s.completeFor tenant seq (.loadRefused r))

/-- The certificate chain: of the attestation key by the identity key, and of that by Nolsol (R392; the order DESIGN CHOICE, unsafe,
log entry 73). -/
def State.certificates (s : State) : List (List Byte) :=
  [Config.certify (Config.identityKey s.identity) s.attestKey, s.identityCert]

/-- The attestation report for a nonce, signed by the attestation key (R392). -/
def State.report (s : State) (nonce : BitVec 256) : Report :=
  let chain := s.certificates
  { nonce := nonce, measurements := s.measurements, records := s.records, certificates := chain
    signature := Config.ecdsaSign s.attestKey (Config.sha256 (Config.reportBytes nonce s.measurements s.records chain)) }

/-- ATTESTATION: as a submission, or as an SPDM request through management, to which the report is returned (R392). -/
def execAttestation (tenant : BitVec 4) (seq : Option (BitVec 32)) (nonce : BitVec 256) (s : State) :
    Host.Outcome State Fault Refusal :=
  .next (match seq with
    | some seq => s.submission tenant ⟨seq, .attest nonce⟩ fun s => s.completeFor tenant seq (.attested (s.report nonce))
    | none => { s with mgmtReports := s.report nonce :: s.mgmtReports })

/-- The configuration records allow a debugger for a tenant (R362). -/
def State.debuggable (s : State) (tenant : BitVec 4) : Bool := s.tenants.any fun t => t.id = tenant && t.debug

/-- A debugger attached for a tenant, or detached, upon which its core goes on (R362). -/
def State.attach (s : State) (tenant : BitVec 4) (on : Bool) : State :=
  if !s.debuggable tenant then s
  else if on then { s with debugger := some tenant }
  else
    let s2 := if s.debugger = some tenant then { s with debugger := none } else s
    if s2.inView && s.debugger = some tenant then s2.leaveView none else s2

/-- DEBUGGER_ATTACH: as a submission, or by management (R362, R394). -/
def execDebuggerAttach (tenant : BitVec 4) (seq : Option (BitVec 32)) (on : Bool) (s : State) : Host.Outcome State Fault Refusal :=
  .next (match seq with
    | some n => s.submission tenant ⟨n, .debugger on⟩ fun s =>
        (s.attach tenant on).completeFor tenant n (.debugger (s.debuggable tenant))
    | none => s.attach tenant on)

/-- REPLAY_COMPLETIONS: the kept entries from a number on are written again with their numbers, then the replay is answered
(R389). -/
def execReplayCompletions (tenant : BitVec 4) (seq : BitVec 32) (start : BitVec 32) (s : State) :
    Host.Outcome State Fault Refusal :=
  .next (s.submission tenant ⟨seq, .replay start⟩ fun s =>
    match s.tenants.find? fun t => t.id = tenant with
    | none => s
    | some t =>
        let back := (t.compSeq - start).toNat
        let oldest := ((t.kept.getLast?).map (·.1)).getD t.compSeq
        if back > t.kept.length && back ≤ 2 ^ 31 then s.completeFor tenant seq (.gap oldest start)
        else
          let n := if back ≤ t.kept.length then back else 0
          let s1 := s.setTenant tenant fun t => { t with posted := t.kept.take n ++ t.posted }
          s1.completeFor tenant seq (.replayed n))

/-- DOORBELL: the device sees the entries that the host has written (R388). -/
def execDoorbell (tenant : BitVec 4) (es : List SubEntry) (s : State) : Host.Outcome State Fault Refusal :=
  .next (if s.hacc then s.setTenant tenant fun t => if t.created then { t with inbox := t.inbox ++ es } else t else s)

/-- A queue is open: the version has been accepted and a tenant has its queues (R387). -/
def State.queueOpen (s : State) : Bool := s.hacc && s.tenants.any (·.created)

/-- HIVER_WRITE (R387). -/
def execHiverWrite (hmaj hmin : BitVec 4) (s : State) : Host.Outcome State Fault Refusal :=
  .next (if s.queueOpen then s else { s with hmaj := hmaj, hmin := hmin, hacc := hmaj = dmaj && hmin.ule dmin })

/-- The HIVER register as the host reads it (R387). -/
def State.hiver (s : State) : BitVec 32 :=
  bit1 s.hacc ++ 0#7 ++ (0#4 ++ dmaj) ++ (0#4 ++ dmin) ++ s.hmaj ++ s.hmin

/-- The next entry of a submission queue as the step that reads it (R388). -/
def submissionStep (tenant : BitVec 4) (e : SubEntry) : Instr :=
  match e.sub with
  | .launch q => .submitLaunch tenant e.seq q
  | .cancel id => .cancelLaunch tenant e.seq id
  | .checkpoint tids => .takeCheckpoint tenant e.seq tids
  | .load c => .loadCheckpoint tenant e.seq c
  | .attest n => .attestation tenant (some e.seq) n
  | .debugger on => .debuggerAttach tenant (some e.seq) on
  | .replay n => .replayCompletions tenant e.seq n

/-! ## Tenants (R332, R383, R388) -/

/-- A tenant that no configuration record names has no quota and no share. -/
def Tenant.none (id : BitVec 4) : Tenant :=
  { id := id, weight := 0, share := 0, recordQuota := 0, dataQuota := 0, cacheQuota := [], lpddrQuota := 0, saveUsed := 0
    debug := false, created := false
    ixCounter := 0, retired := 0, coreCycles := Vector.replicate 4 0, subQ := (0, 0), compQ := (0, 0), faultQ := (0, 0)
    expected := 0, executed := 0, answers := [], inbox := [], compSeq := 0, kept := [], posted := [], faults := [], checkpointArea := false
    peerSeals := [] }

/-- TENANT_CREATION: the task-index counter starts at 0 and the queues open at sequence number 0 (R332, R388, R389). It brings the
tenant's page table, and a page beyond its tier does not exist (R13, R203). No mapping enters the table later: the manual describes
revocations only (R203, R207; DESIGN CHOICE, unsafe, log entry 88). -/
def execTenantCreation (tenant : BitVec 4) (subQ compQ faultQ : Nat × Nat) (pages : List Page) (s : State) :
    Host.Outcome State Fault Refusal :=
  let base := (s.tenants.find? fun t => t.id = tenant).getD (Tenant.none tenant)
  .next (if base.created then s
    else
      let t := { Tenant.none tenant with
        weight := base.weight, share := base.share, recordQuota := base.recordQuota, dataQuota := base.dataQuota
        cacheQuota := base.cacheQuota, lpddrQuota := base.lpddrQuota, debug := base.debug, created := true, subQ := subQ, compQ := compQ, faultQ := faultQ
        checkpointArea := Config.checkpointArea tenant }
      { s with tenants := s.tenants.filter (fun x => x.id ≠ tenant) ++ [t]
               pages := s.pages ++ pages.filter fun p => p.tenant = tenant && pageFits s.areas p })

/-- The core drops a context that is torn down, and with it a save that was to come; its record that the fault buffer had no room for
is held no longer (R356). -/
def State.dropContext (s : State) : State :=
  { s.dropLogs with
      core := { Core.fresh with pcore := s.core.pcore, plane := s.core.plane, clag := s.trunk }
      agenda := s.agenda.filter fun e => e.2 ≠ Instr.contextSave
      overflow := false, overflowTold := false
      task := none, retiring := none, contextLaunch := none }

/-- A set without the names of the tensors that go. -/
def knownNames (gone : BitVec 24 → Bool) (ps : List PName) : List PName := ps.filter fun p => !gone (BitVec.ofNat 24 p.1)

/-- A flag access that carries a release set. -/
def Act.mapSet (f : List PName → List PName) : Act → Act
  | .flag c o => .flag c { o with rel := o.rel.map f }
  | a => a

/-- The sets that a context holds: what it has observed, and those of its flag writes on the way. -/
def Core.mapSets (f : List PName → List PName) (c : Core) : Core :=
  { c with observed := f c.observed, timeline := c.timeline.map fun e => { e with act := e.act.mapSet f } }

/-- The sets that a launch holds: of its barriers, and of its flags while another launch has the file. -/
def Launch.mapSets (f : List PName → List PName) (l : Launch) : Launch :=
  { l with barriers := l.barriers.map fun x => { x with set := f x.set }
           savedFlags := l.savedFlags.map fun x => (x.1, x.2.map fun w => { w with set := f w.set }) }

/-- The patches of tensors that go leave every set of names: of releases, flags, barriers and contexts, so that no later patch of the
same name enters a read by them (R266). Every other name stays, those of peers' tensors among them. -/
def State.forget (s : State) (gone : BitVec 24 → Bool) : State :=
  let known := knownNames gone
  State.mapCores { s with relHist := s.relHist.map fun r => { r with set := known r.set }
                          flagHist := s.flagHist.map fun w => { w with set := known w.set }
                          launches := s.launches.map (·.mapSets known)
                          snaps := s.snaps.map fun n => { n with core := n.core.mapSets known } } (·.mapSets known)

/-- TENANT_TEARDOWN (R225, R228, R383; what goes with the tenant is DEDUCED, unsafe, log entry 44). -/
def execTenantTeardown (tenant : BitVec 4) (s : State) : Host.Outcome State Fault Refusal :=
  let gone := s.launches.filter fun l => l.tenant = tenant
  let ids := gone.map (·.id)
  let s0 := s.forget fun tid => s.tensors.any fun t => t.desc.tid = tid && t.tenant = tenant
  let s1 := if s.contextLaunch.any ids.contains then s0.dropContext else s0
  let close := fun (t : Tenant) =>
    if t.id = tenant then
      { Tenant.none tenant with weight := t.weight, share := t.share, recordQuota := t.recordQuota, dataQuota := t.dataQuota
                                cacheQuota := t.cacheQuota, lpddrQuota := t.lpddrQuota, debug := t.debug }
    else t
  let s2 := (gone.filter fun l => l.granted && !l.completed).foldl (fun s l => s.journalise (.grant l.id false)) s1
  .next { s2 with
    tenants := s1.tenants.map close
    launches := s1.launches.filter fun l => l.tenant ≠ tenant
    saved := s1.saved.filter fun x => !ids.contains x.task.1
    pool := s1.pool.filter fun x => !ids.contains x.1
    spillQ := s1.spillQ.filter fun x => !ids.contains x.1
    heldRetirements := s1.heldRetirements.filter fun x => !ids.contains x.1
    pages := s1.pages.filter fun p => p.tenant ≠ tenant
    markers := s1.markers.filter fun m => m.tenant ≠ tenant
    tensors := s1.tensors.filter fun t => t.tenant ≠ tenant
    cache := s1.cache.filter fun u => u.tenant ≠ tenant
    pfops := s1.pfops.filter fun o => o.h.tenant ≠ tenant
    heldPackets := s1.heldPackets.filter fun x => x.2.1.tenant ≠ tenant
    slotWrites := s1.slotWrites.filter fun w => w.tenant ≠ tenant
    shards := s1.shards.filter fun x => x.1 ≠ tenant
    checkpoints := s1.checkpoints.filter fun x => x.1 ≠ tenant
    debugger := if s1.debugger = some tenant then none else s1.debugger
    stations := s1.stations.map fun x => { x with contexts := x.contexts.filter fun c => c.tenant ≠ tenant } }

end Sys2Proof.Machine
end

