-- ==== Sys2Proof/Machine/Fabric.lean ====
section
/-! DEFINITION. The UALink stations (R382 to R386): training, tenant contexts, operation packets from peers, closed sources and
links that go down. -/

namespace Sys2Proof.Machine

/-- UALINK_TRAINING: a single x4 port with none of the options that the device lacks, or the link stays down (R382). -/
def execUalinkTraining (station : BitVec 4) (t : Training) (s : State) : Host.Outcome State Fault Refusal :=
  .next (s.setStation station fun x => { x with up := t.port = 4 && !t.atomics && !t.security && !t.other })

/-- The peers that form a partition with this device: those whose version word has its major version (R387). -/
def admitted (peers : List (BitVec 10 × BitVec 32)) : List (BitVec 10) :=
  (peers.filter fun p => field p.2 16 8 = 0#4 ++ dmaj).map (·.1)

/-- TENANT_JOIN: one of the station's 16 contexts, and the packages of its partition with the version words that their crown
schedulers exchange (R383, R384, R387; that they come with the context is DEDUCED, unsafe, log entry 37). -/
def execTenantJoin (station : BitVec 4) (c : Joining) (s : State) : Host.Outcome State Fault Refusal :=
  let others := fun (x : Station) => x.contexts.filter fun y => y.tenant ≠ c.ctx.tenant
  let s1 := s.setStation station fun x =>
    if c.ctx.weight ≠ 0 && (others x).length < 16 then { x with contexts := others x ++ [c.ctx] } else x
  .next { s1 with members := s1.members.filter (fun m => m.1 ≠ c.ctx.partition || !(c.peers.map (·.1)).contains m.2) ++
                    (admitted c.peers).map fun p => (c.ctx.partition, p) }

/-- The answer of an outstanding operation over a link that is down (R386). -/
def State.failOp (s : State) (o : PatchOp) : State := s.answerOp { o with state := .answered (noPath o.name) }

/-- UALINK_LINK_DOWN of a link that is up: it is reported, and the operations outstanding over it are answered (R386). -/
def execUalinkLinkDown (station : BitVec 4) (s : State) : Host.Outcome State Fault Refusal :=
  let across := fun (o : PatchOp) =>
    o.station = some station.toNat && match o.state with | .answered _ => false | _ => true
  let s1 := (s.allOps.filter across).foldl (fun s o => s.failOp o) s
  let s2 := s1.setStation station fun x => { x with up := false }
  .next (if (s.stations[station.toNat]'(by omega)).up then s2.completeAll (.linkDown station.toNat) else s)

/-- A peer's pod-scope release: its set is published here, and it is acknowledged (R266, R267, R382; that it carries its set and
counts from its arrival is DEDUCED, unsafe, log entry 37). -/
def State.peerRelease (s : State) (h : PacketHead) (id : Nat) (set : List PName) : State :=
  { s with relHist := s.relHist ++ [⟨s.trunk, peerCore h.source, 5, set, none⟩], podAcks := (h.source, id) :: s.podAcks }

/-- OPERATION_PACKET_ARRIVAL: a refusal returns to the sender and leaves nothing here (R382, R384, R386). -/
def execOperationPacketArrival (p : Packet) (s : State) : Host.Outcome State Fault Refusal :=
  .next (s.station p.head fun s => match p.body with
    | .patch q => s.packetSlice p.head q
    | .release id set => s.peerRelease p.head id set)

/-- SOURCE_CLOSE_EXPIRY: the station takes packets of the source again (R386). -/
def execSourceCloseExpiry (source : BitVec 4 × BitVec 10) (s : State) : Host.Outcome State Fault Refusal :=
  .next (s.setStation source.1 fun x =>
    { x with closed := x.closed.filter (· ≠ source.2)
             drops := x.drops.filter fun d => d.1 ≠ source.2 || !x.closed.contains source.2 })

end Sys2Proof.Machine
end

