-- ==== Sys2Proof/Machine/Reliability.lean ====
section
/-! DEFINITION. Strike rollback (R369 to R374), uncorrectable errors (R367, R368), bubbles (R14, R120), and the device switched
on, off and updated (R390, R391, R393). -/

namespace Sys2Proof.Machine

/-! ## Strike rollback (R369 to R372) -/

/-- Snapshots are kept of the present context: it runs a task that has not made its last release (R373). -/
def State.keepsSnaps (s : State) : Bool :=
  s.task.isSome && s.retiring.isNone && match s.core.s.wait with | some (.taskendRelease _) => false | _ => true

/-- The snapshot of the current phase. -/
def State.hasSnap (s : State) : Bool := s.snaps.any fun n => n.phase = s.core.phase && n.ended.isNone

/-- A prefetch operation of the context on the core: what the operations of other contexts do outlasts a rollback (R222, R371). -/
def State.pfOwn (s : State) (o : PfOp) : Bool := s.core.token o.tok = .busy o.id

/-- A snapshot of the current phase with the core as given. -/
def State.newSnap (s : State) (c : Core) (whole : Bool) : Snap :=
  ⟨c, s.core.phase, s.ctime, none, true, whole, s.pfops.filter s.pfOwn⟩

/-- A frozen core as it stands without what froze it: a completed word's fault that is being handled is queued again, and an
uncompleted word issues again (R123, R370). A translation that is being installed stays to be installed. -/
def Core.atRest (c : Core) : Core :=
  let still := c.freeze.filter fun f => match f with | .install .. => true | .installOver .. => true | _ => false
  let again := match c.handling.or (c.heldRec.map (·.2)) with
    | some f => if f.kind = .precise && !f.next then [] else [f]
    | none => []
  let raised := (c.handling.or (c.heldRec.map (·.2))).filter fun f => f.kind = .precise
  { c with freeze := still, faultQ := again ++ c.faultQ, handling := none, heldRec := none, issuing := none
           faultAt := match raised with | some f => c.faultAt.eraseP (·.1 = f.at_.cl) | none => c.faultAt
           shadow := { c.shadow with active := false } }

/-- A core that is met in the first cycle of its phase, task or restore is kept as it stands, so that a report in that cycle
finds its rollback point (R369; DEDUCED, unsafe, log entry 65). -/
def State.keepMidway (s : State) : State :=
  if s.keepsSnaps && !s.hasSnap then { s with snaps := s.snaps ++ [s.newSnap s.core.atRest false] } else s

/-- At the end of the first cycle of a phase the core is kept for a strike rollback (R369, R372). -/
def State.keepSnap (s : State) : State :=
  if !s.keepsSnaps then s
  else
    let others := s.snaps.filter fun n => !(n.phase = s.core.phase && n.ended.isNone && !n.whole && n.ctime = s.ctime)
    if others.any fun n => n.phase = s.core.phase && n.ended.isNone then s
    else { s with snaps := others ++ [s.newSnap s.core true] }

/-- The strike zone of the core (R369). -/
def State.zone (s : State) : Nat := s.self % 48 / 4

/-- A phase that a strike report of this trunk cycle cancels (R369). -/
def State.cancels (s : State) (n : Snap) : Bool := n.ended.all fun x => s.trunk < x + Config.finality

/-- The phases that a report cancels, oldest first. -/
def State.cancelled (s : State) : List Snap := s.snaps.filter s.cancels

/-- A phase is protected: the current one as it stands, an ended one as it stood then (R372). -/
def State.isCovered (s : State) (n : Snap) : Bool := if n.ended.isNone then s.core.protectedPhase else n.covered

/-- The STRIKE ROLLBACK record (R369). -/
def State.strikeInfo (s : State) (reason : Nat) (n : Snap) : FaultInfo :=
  let count := min s.cancelled.length 255
  ⟨0x63, .info, 15, ⟨.S, 0, 0⟩, false, BitVec.ofNat 8 reason ++ BitVec.ofNat 8 count ++ BitVec.ofNat 16 n.phase
    , BitVec.ofNat 64 s.ctime, BitVec.ofNat 64 n.ctime, none⟩

/-- A copy-in filled this range for the phase: the front half of a DB region, or another region. -/
def Core.refills (c : Core) (lines : List Nat) : Bool :=
  c.regions.any fun r => match r with
    | some r => lines.any fun l => if r.db then (r.halves (64 * l) 64).contains r.front else meets (64 * l) 64 r.base r.size
    | none => false

/-- Cycles that the refetch of copy-ins takes one after another: each starts when the request phase before it has ended
(R209, R213, R369; DEDUCED, unsafe, log entry 41). -/
def refetchTime : List (List Nat × Nat) → Nat → Nat
  | [], _ => 0
  | (ls, n) :: fs, start => max (start + n) (refetchTime fs (start + (ls.length + 3) / 4))

/-- An operation of the restored context: its answer comes on the core cycle of its first answer; one that has reached its
slice stands there as it does now (R370, R371). One whose data was still being read reads it again and sets out anew, with the replay
mark of R243 (R369; DEDUCED, unsafe, log entry 74). -/
def State.restoredOp (s : State) (o : PatchOp) : PatchOp :=
  let first := s.opLog.find? fun x => x.1 = o.key
  if o.state = .reading then { o with replay := true, answerAt := first.map (·.2.2) }
  else match first with
    | some x => { o with state := .answered x.2.1, answerAt := some x.2.2 }
    | none => (s.core.ops.find? fun x => x.id = o.id).getD o

/-- A release of the restored context keeps the acknowledgements that have come since (R267, R370). -/
def State.restoredRelease (s : State) (r : Release) : Release :=
  match s.core.releases.find? fun x => x.id = r.id with
  | some x => { r with acks := x.acks }
  | none => r

/-- The wait of S for something outside the core that a strike meets is kept, so that the replay waits as long (R370). -/
def State.keepWait (s : State) : State :=
  let what : Option Outside := match s.core.s.wait with
    | some (.kick _) => some .kick
    | some (.kwait _) => some .kwait
    | some (.swap _) => some .swap
    | _ => if s.core.s.mode = .halted then some .halt else none
  match what with
  | some w => if (s.waitKept w).isSome then s else { s with waitLog := ⟨s.core.phase, s.core.s.seqAt, w, none⟩ :: s.waitLog }
  | none => s

/-- The event that is being handled is pending again (R370). -/
def State.repended (s : State) : List (AsyncEvent × Nat) :=
  let taken := fun (f : Freeze) => match f with
    | .event e => some e
    | .debug => if s.core.handling.isNone then some .debugHalt else none
    | _ => none
  let again := (s.core.freeze.filterMap taken).filter fun e => s.core.pending.all (·.1 ≠ e)
  s.core.pending ++ again.map fun e => (e, s.trunk)

/-- The core returns to a rollback point and freezes for the refetch (R369). Operations of the cancelled span do not run to
completion, and a record that waited for the fault buffer is written when its fault is raised again. -/
def State.rollback (s : State) (n : Snap) : State :=
  let s := s.keepWait
  let c := n.core
  let fills := (c.fills.filter fun f => c.refills f.1).reverse
  let resume := s.trunk + max 1 (refetchTime fills 0)
  let keep := s.core.freeze.filter (· = Freeze.reload)
  let still := c.freeze.filter fun f => match f with | .install .. => true | .installOver .. => true | _ => false
  let c1 := { c with clag := s.trunk - n.ctime, freeze := Freeze.refetch resume (!n.whole) :: keep ++ still, pending := s.repended, stepRem := none
                     ops := c.ops.map s.restoredOp, releases := c.releases.map s.restoredRelease }
  let s1 := { s with core := c1.setCir cirRB
                     snaps := s.snaps.filter (fun x => !s.cancels x) ++ [{ n with ended := none, covered := true }]
                     pfops := (s.pfops.filter fun o => !s.pfOwn o) ++ n.pfops
                     overflow := false, overflowTold := false
                     replayUntil := some (max s.ctime (s.replayUntil.getD 0))
                     agenda := s.agenda.filter fun e => e.2 ≠ Instr.contextSave }
  if c.kick.any fun k => k.bytes.length = 16 then s1.schedule (s.trunk + 1) .kickPlacement else s1

/-- STRIKE_REPORT of a zone (R369, R372). -/
def execStrikeReport (zone : Nat) (s : State) : Host.Outcome State Fault Refusal :=
  .next (if zone ≠ s.zone || s.task.isNone then s
    else
      let s := s.keepMidway
      match s.cancelled with
      | [] => s
      | n :: _ =>
          if s.cancelled.all s.isCovered then (s.infoRecord (s.strikeInfo 1 n)).rollback n
          else
            let s1 := s.infoRecord (s.strikeInfo 2 n)
            { s1 with core := s1.core.setCir cirLOST })

/-! ## Uncorrectable errors (R367, R368) -/

/-- ECC_UNCORRECTABLE: the unit is poisoned (R367). -/
def execEccUncorrectable (u : PoisonUnit) (s : State) : Host.Outcome State Fault Refusal :=
  .next (match u with
    | .memLine n =>
        if s.gpoison.contains n then s else s.changing false fun s => { s with gpoison := n :: s.gpoison }
    | .patchData tid name =>
        let bad := fun (r : PatchRec) =>
          if r.tid.toNat = tid && r.name.toNat = name then { r with poisoned := true } else r
        s.changing false fun s => { s with tensors := s.tensors.map fun t => { t with chain := t.chain.map bad } }
    | u => if s.core.poison.contains u then s else { s with core := { s.core with poison := u :: s.core.poison } })

/-- PLANE_WORD_ERROR: the word is rewritten from the protected copy, so that only CLAG shows it (R368). -/
def execPlaneWordError (s : State) : Host.Outcome State Fault Refusal :=
  let d := s.draw
  let c := d.2.core
  .next (State.schedule { d.2 with core := { c with freeze := c.freeze.filter (· ≠ Freeze.reload) ++ [.reload] } }
    (s.trunk + 1 + Config.loadDelay d.1) .coreResume)

/-! ## Bubbles (R14, R120) -/

/-- What runs in real time comes sooner in trunk time by the length of a bubble (R216, R375, R386; DEDUCED, unsafe, log
entry 28). -/
def State.realSooner (s : State) (n : Nat) : State :=
  let real := fun (e : Nat × Instr) => match e.2 with
    | .linkGroupDown _ => true
    | .sourceCloseExpiry .. => true
    | _ => false
  let sooner := fun (x : Nat) => max s.trunk (x - n)
  let unit := fun (u : DrawerUnit) => { u with due := sooner u.due }
  let s1 := State.mapCores { s with agenda := s.agenda.filter fun e => !real e } fun c =>
    { c with copyQ := c.copyQ.map fun q => { q with units := q.units.map unit } }
  (s.agenda.filter real).foldl (fun s e => s.schedule (sooner e.1) e.2) s1

/-- THROTTLE_BUBBLE of `n` cycles: nothing else advances (R120). -/
def execThrottleBubble (n : Nat) (s : State) : Host.Outcome State Fault Refusal :=
  .next { s.realSooner n with bubble := s.bubble + n }

/-! ## The boot chain (R390 to R392) -/

/-- Bytes whose digest is as stated and whose signature verifies with a key (R390). -/
def sealOk (key bytes : List Byte) (digest : BitVec 256) (sig : BitVec 512) : Bool :=
  Config.sha256 bytes = digest && Config.ecdsaVerify key digest sig

/-- Why the chain stops at the image of a stage, verified against the root key: 0 not at all, 1 its digest or signature, 2 its
version (DESIGN CHOICE, unsafe, log entry 27). -/
def stageReason (f : BootFlash) : Option BootStage → Nat
  | none => 1
  | some b => if !sealOk f.rootKey b.image b.digest b.signature then 1 else if b.version < f.monotonic then 2 else 0

/-- A record of a type that R391 does not list. -/
def isUnknown : RecordBody → Bool
  | .unknown _ => true
  | _ => false

/-- The key that stage 2's image names for the records (R390). -/
def recordKeyOf (f : BootFlash) : List Byte := Config.recordKey (((f.stages[2]?).map (·.image)).getD [])

/-- Why the chain stops at a configuration record: 1 its digest or signature, 3 its type (R390, R391). -/
def recordReason (f : BootFlash) (r : ConfigRecord) : Nat :=
  if !sealOk (recordKeyOf f) (Config.recordBytes r.length r.version r.body) r.digest r.signature then 1
  else if isUnknown r.body then 3 else 0

/-- A tenant as the configuration records limit it. -/
def limited (x : TenantLimits) : Tenant :=
  { Tenant.none x.id with share := x.share, weight := x.weight, recordQuota := x.records, dataQuota := x.data
                          cacheQuota := x.cache, lpddrQuota := x.lpddr, debug := x.debug }

/-- A configuration record applied (R391); a later one of a type applies in place of an earlier one. Areas that do not fit a die's
canopy SRAM, and a patch data area above 256 MiB, are cut, a slot table that gives a core a GMAX below 32 is left out while the
record's L applies, and the chain goes on (R13, R20, R217, R372; DESIGN CHOICE, unsafe, log entry 67). -/
def State.applyRecord (s : State) : RecordBody → State
  | .drawer l slots => State.setSlots { s with drawerL := l } slots
  | .tenants ts => { s with tenants := ts.map limited }
  | .areas rollback spill dies =>
      let size := min rollback (Config.canopyBytes / 48)
      { s with rollbackArea := size, spillQueueSize := spill, areas := canopyAreas dies size }
  | .retrain limit => { s with retrainLimit := limit }
  | .origin n => { s with origin := n }
  | .unknown _ => s

/-- What outlasts a reset: the management log, and the outside world's events, but no timer of the device's own (DESIGN CHOICE,
unsafe, log entry 29). -/
def State.afterReset (s : State) (boot : Boot) : State :=
  { State.reset with boot := boot, mgmtLog := s.mgmtLog, mgmtReports := s.mgmtReports
                     agenda := s.agenda.filter fun e => !isTimer e.2
                     monotonic := s.monotonic, identity := s.identity, identityCert := s.identityCert, free := s.free }

/-- The stage and reason at which the chain of a flash stops, if it does: the root key against its hash in ROM, the images of
stages 0 to 2 in order, then the records in flash order (R390). -/
def chainStops (f : BootFlash) : Option (Nat × Nat) :=
  if Config.sha256 f.rootKey ≠ Config.rootKeyHash then some (0, 1)
  else
    match (List.range 3).find? fun k => stageReason f (f.stages[k]?) ≠ 0 with
    | some k => some (k, stageReason f (f.stages[k]?))
    | none => (f.records.find? fun r => recordReason f r ≠ 0).map fun r => (3, recordReason f r)

/-- What the flash holds in replay-protected storage: the counter never goes down (R390). -/
def State.guarded (s : State) (f : BootFlash) : BootFlash := { f with monotonic := max s.monotonic f.monotonic }

/-- What each stage measures: its image, and for stage 3 its configuration records in flash order (R390, R392). -/
def stageDigests (f : BootFlash) : List (BitVec 256) :=
  (f.stages.take 3).map (fun b => Config.sha256 b.image) ++
    [Config.sha256 (f.records.flatMap fun r => Config.recordBytes r.length r.version r.body)]

/-- What the stages below `k` have measured, the attestation key that stage 1 derives, and the identity that certifies it (R392). -/
def State.measured (s : State) (f : BootFlash) (k : Nat) : State :=
  let log := (stageDigests f).take k
  { s with monotonic := f.monotonic, measurements := log, attestKey := if k ≥ 2 then Config.attestKey (log.take 2) else []
           identity := f.identity, identityCert := f.identityCert }

/-- The chain run on a flash (R390). -/
def State.bootFrom (s : State) (flash : BootFlash) : State :=
  let f := s.guarded flash
  match chainStops f with
  | some (k, r) => (s.afterReset (.stopped k r)).measured f k
  | none =>
      let s1 := (f.records.map (·.body)).foldl State.applyRecord (s.afterReset .running)
      State.measured { s1 with tenants := capQuotas s1.tenants Config.sliceRecords s1.leastPatchArea s1.cacheUnits
                               records := f.records.map (·.digest) } f 4

/-- HOST_WAKE of a device that is off (R15, R390). -/
def execHostWake (flash : BootFlash) (s : State) : Host.Outcome State Fault Refusal :=
  .next (if s.boot = .off then s.bootFrom flash else s)

/-- FIRMWARE_UPDATE: a device whose chain has stopped takes the new flash and runs the chain again (R390). -/
def execFirmwareUpdate (flash : BootFlash) (s : State) : Host.Outcome State Fault Refusal :=
  .next (match s.boot with
    | .stopped _ _ => s.bootFrom flash
    | _ => s)

/-- THERMAL_POWER_OFF: the event is recorded, each tenant's queue gets a completion if the host link still stands, and everything
that ran is lost (R393). -/
def execThermalPowerOff (s : State) : Host.Outcome State Fault Refusal :=
  let d := s.draw
  let s1 := if Config.linkStands d.1 then d.2.completeAll .poweredOff else d.2
  .next (if s.boot = .off then s
    else { s1.afterReset .off with mgmtLog := s.trunk :: s.mgmtLog, tenants := s1.tenants.map fun t => { t with created := false } })

end Sys2Proof.Machine
end

