-- ==== Sys2Proof/Machine/Trunk.lean ====
section
/-! DEFINITION. A trunk cycle outside a bubble (R14, R108, R119 to R122, R145 to R147, R175, R307, R372). -/

namespace Sys2Proof.Machine

/-! ## The core passes to its next cycle -/

/-- A cluster passes to the next core cycle: IDLEREM goes down unless S holds the cluster (R58, R108), but for the cycle on which a
wait ended (R109); LRET and ANY are kept as they stood (R113), and the header of a section that waits for its numbers has been
checked (R114). -/
def ClusterSt.nextCycle (k : ClusterSt) (held : Bool) : ClusterSt :=
  { k with idleRem := if k.issuedNow || (held && !k.woke) then k.idleRem else k.idleRem - 1
           woke := false, unchecked := k.unchecked && !(k.mode = .entryWait && k.idleRem = 0 && !k.issuedNow)
           issuedNow := false, entered := false, lretWas := k.lret, anyWas := k.any }

/-- S waits at a PHSW, QUIET or YIELD, which hold the other clusters (R129, R130, R183). -/
def ClusterSt.holds (k : ClusterSt) : Bool :=
  match k.wait with
  | some (.quiet _) => true
  | some (.phsw _ _) => true
  | _ => false

/-- The core passes to its next cycle. -/
def Core.nextCycle (c : Core) : Core :=
  { c with s := c.s.nextCycle false, l := c.l.nextCycle c.holdOthers, m := c.m.nextCycle c.holdOthers
           w := c.w.nextCycle c.holdOthers, holdOthers := c.holdOthers && c.s.holds, qjump := none, cursor := 0
           stepRem := c.stepRem.map (· - 1) }

/-- The new core cycle: everything that is due on it performs (R145, R147), and on a replay its stalls come again (R370). -/
def State.moveCore (s : State) : State :=
  let s1 := s.keepSnap
  let s2 := State.shadowFlags { s1 with trunk := s1.trunk + 1, core := s1.core.nextCycle } (s1.trunk + 1)
  (s2.performDue s2.ctime).stallsAgain

/-! ## A frozen core (R121, R352, R369) -/

/-- CLAG grows, and a handler whose record has been written starts (R355), after the shadow writes of the cycle, so that its
g1 to g4 hold the record (R352; DEDUCED, unsafe, log entry 56). -/
def State.lagCore (s : State) : State :=
  let s := s.keepMidway.shadowFlags (s.trunk + 1)
  let c := s.core
  let s1 := { s with trunk := s.trunk + 1, core := { c with clag := c.clag + 1, shadow := c.shadow.performDue (s.trunk + 1) } }
  if s1.core.freeze.contains .entering then s1.startHandler else s1

/-- The refetch after a strike ends: the core resumes on this trunk cycle (R369). -/
def Core.refetched (c : Core) (trunk : Nat) : Core :=
  let on := fun (f : Freeze) => match f with | .refetch u _ => trunk < u | _ => true
  { c with freeze := c.freeze.filter on }

/-- The core returns to a cycle of which words are still to issue. -/
def Core.midway (c : Core) : Bool := c.freeze.any fun f => match f with | .refetch _ m => m | _ => false

/-! ## The rest of the package -/

/-- The shadow context passes to the next trunk cycle (R352). -/
def Shadow.nextCycle (k : Shadow) (trunk : Nat) : Shadow :=
  let k1 := k.performDue trunk
  { k1 with idleRem := k1.idleRem - 1 }

/-- A task runs on a core, rather than being saved. -/
def State.runsOn (s : State) (l : Launch) (t : Task) : Option Nat :=
  match t.state with
  | .running core => if s.saved.any fun x => x.task = (l.id, t.ix) then none else some core
  | _ => none

/-- Core cycles are counted to their tenants, die by die (R334). -/
def State.countCycles (s : State) : State :=
  let used := s.launches.flatMap fun l => l.tasks.filterMap fun t => (s.runsOn l t).map fun core => (l.tenant, dieOf core)
  if used = [] then s
  else
    let add := fun (t : Tenant) =>
      { t with coreCycles := t.coreCycles.mapFinIdx fun d n _ => n + (used.filter (· = (t.id, d))).length }
    { s with tenants := s.tenants.map add }

/-- The crown scheduler starts on a dispatch or a plane load that has become possible (R334, R339). -/
def State.crownBegins (s : State) : State :=
  let s1 :=
    if s.coreFree && !s.crownDown && s.nextCand.isSome then
      match s.dispatchAt with
      | some _ => s
      | none =>
          let d := s.draw
          { d.2 with dispatchAt := some (s.trunk + Config.dispatchDelay d.1) }
    else { s with dispatchAt := none }
  if s1.loadDue && s1.loadAt.isNone then
    let d := s1.draw
    { d.2 with loadAt := some (s1.trunk + 1 + Config.loadDelay d.1) }
  else s1

/-- What happens beside the core on a new trunk cycle. -/
def State.packageCycle (s : State) (moved : Bool) : State :=
  let s1 := { s with core := { s.core with shadow := s.core.shadow.nextCycle s.trunk } }
  ((s1.passWrites.tickCopies moved).countCycles).crownBegins

/-- Queued deferred faults and stalls are taken after the words of a cycle, also those that waited for its precise faults (R348). -/
def State.afterWords (s : State) : State :=
  if s.core.freeze = [] then
    State.takeQueued { s with core := { s.core with faultQ := s.core.waitQ ++ s.core.faultQ, waitQ := [] } }
  else s

/-- TRUNK_CYCLE. -/
def execTrunkCycle (s : State) : Host.Outcome State Fault Refusal :=
  let s0 := s.afterWords
  let s1 := { s0 with core := s0.core.refetched (s0.trunk + 1) }
  .next (if s1.core.freeze = [] && !s0.core.midway then s1.moveCore.packageCycle true else s1.lagCore.packageCycle false)

end Sys2Proof.Machine
end

