-- ==== Sys2Proof/Machine/Pick.lean ====
section
/-! DEFINITION. Which step the machine takes: a word that is ready to issue, an event from outside that is due, an event whose
condition holds, a step of a cluster in its turn, or the next trunk cycle. -/

namespace Sys2Proof.Machine

/-- What the machine does next. -/
inductive Choice where
  /-- Nothing can happen. -/
  | stop (f : Fault)
  /-- An event meets a device that is off. -/
  | drop (s : State)
  /-- The step `i` from state `s`. -/
  | run (s : State) (i : Instr)

/-- The step when its condition holds. -/
def orWhen (cond : Bool) (i : Instr) : Option Instr := if cond then some i else none

/-! ## Engines, links and slices (R181, R207, R209 to R222, R236 to R247, R267) -/

/-- The copy engine and the drawer links. -/
def State.copyPick (s : State) : Option Instr :=
  let awake : Bool := s.core.freeze = []
  (orWhen (awake && (s.core.copyStarts s.ctime).isSome) .copyCommandStart).or
    ((s.unitDue.map fun x => .drawerUnitArrival x.1.id x.2.index).or
      ((if awake then s.copyCompletes.map fun q => .copyInCompletion q.id else none).or
        ((s.pfops.find? s.pfReady).map fun o => .prefetchDone o.tok)))

/-- Slices, releases, phases and pages. -/
def State.slicePick (s : State) : Option Instr :=
  ((s.allOps.find? s.landed).map fun o => .patchArrival o.id).or
    ((((s.allOps.find? s.reoffers).map fun o => .patchReoffer o.id).or
        ((s.heldPackets.find? s.packetMoves).map fun x => .patchReoffer x.1)).or
      (((s.core.ops.find? fun o => (s.answerOf o).isSome).map fun o => .patchAnswer o.id).or
        (((s.core.releases.find? s.releaseReady).map fun r => .releaseComplete r.id).or
          ((orWhen (s.snaps.any s.phaseDone) .phaseFinal).or
            ((s.pages.find? s.releasable).map fun p => .pageRelease p.tenant p.va)))))

/-! ## The host and the crown scheduler -/

/-- The head of a submission queue, which no one reads while no crown core runs the scheduler (R346, R388). -/
def State.hostPick (s : State) : Option Instr :=
  if s.hacc && !s.crownDown then
    s.tenants.findSome? fun t => if t.created then t.inbox.head?.map fun e => submissionStep t.id e else none
  else none

/-- A KICK that waits for room has it (R341). -/
def State.kickRoom (s : State) : Bool :=
  s.mayEnd .kick && s.core.kick.any fun k =>
    k.waiting && (s.poolFree > Config.kickReserve || (k.crit && s.poolFree > 0) || (!k.crit && s.spillQ.length < s.spillQueueSize))

/-- A walk point that may be reached, as launch and record (R331). -/
def State.walkPick (s : State) : Option Instr :=
  s.launches.findSome? fun l =>
    ((List.range l.nests.length).find? (s.walkDue l)).map fun k => .walkPointReached l.id k

/-- The launch that the gang's flag file is granted to next: one whose flags were saved comes after the others (R344, R360). -/
def State.grantPick (s : State) : Option Instr :=
  let free := s.launches.filter s.flagsFree
  ((free.find? (·.savedFlags.isNone)).or free.head?).map fun l => .flagFileGrant l.id

/-- The task that is retiring (R336). -/
def State.retirePick (s : State) : Option Instr :=
  s.retiring.bind fun x => (s.launchOf x.1).bind fun l =>
    orWhen (l.tasks.any fun t => t.ix = x.2 && match t.state with | .running _ => true | _ => false) (.taskRetirement l.tenant x.2)

/-- A dispatch to another core, which runs no task (R334). -/
def State.otherDispatch (s : State) : Option Instr :=
  let busy := fun (core : Nat) => s.launches.any fun l => l.tasks.any fun t => t.state = .running core
  ((s.launches.flatMap (·.cores)).eraseDups.filter fun core => core ≠ s.self && !busy core).findSome? fun core =>
    (s.choose (dieOf core) (s.readyTasks core)).map fun c => .taskDispatch c.launch c.ix core

/-- The dispatch or the restore that the modelled core is free for (R334, R361). -/
def State.ownDispatch (s : State) : Option Instr :=
  if s.coreFree && s.planeReady && s.dispatchAt.any (· ≤ s.trunk) then
    s.nextCand.map fun c => match c.slot with
      | some k => .contextRestore k
      | none => .taskDispatch c.launch c.ix s.self
  else none

/-- What the crown scheduler does next; while it is down, retirements are held and only a running task's plane is loaded (R346). -/
def State.crownPick (s : State) : Option Instr :=
  let load := orWhen (s.loadDue && s.loadAt.any (· ≤ s.trunk)) .planeLoad
  (s.retirePick).or ((orWhen s.haltDone .haltRetirement).or
    (if s.crownDown then load
    else (s.walkPick).or ((orWhen (!s.spillQ.isEmpty && s.poolFree > Config.kickReserve) .spilledKickEntersPool).or
      ((orWhen s.kickRoom .kickPlacement).or (s.grantPick.or
        ((orWhen (s.launches.any Launch.allRetired) .launchCompletion).or
          ((orWhen s.preemptDue .preemptionRequest).or
            (load.or (s.otherDispatch.or s.ownDispatch)))))))))

/-! ## The clusters (R108, R109, R114 to R118) -/

/-- The cluster's turn on this cycle is still to come and its IDLEREM is zero. -/
def State.due (s : State) (c : Cluster) : Bool :=
  let k := s.core.cl c
  s.core.cursor ≤ c.idx && k.idleRem = 0 && !k.issuedNow

/-- The cluster is free to issue on this cycle: S does not hold it (R108, R129). -/
def State.open (s : State) (c : Cluster) : Bool := s.due c && (c = .S || !s.core.holdOthers)

/-- The cluster leaves its section on this cycle, on which it could issue; a parked cluster obeys a steer even while S holds
it (R108, R118). -/
def State.leavesNow (s : State) (c : Cluster) : Bool :=
  match (s.core.cl c).mode with
  | .running => s.open c && s.atEnd c
  | .parked => s.due c && (s.steerSeen c).isSome
  | _ => false

/-- A section left or entered without a fault; S holds no cluster from its entry (R114, R129). -/
def State.prepare (s : State) (c : Cluster) : Option Instr :=
  let quiet := match s.leaving c with | .ok _ => true | .fault _ => false
  (orWhen (s.leavesNow c && quiet) (.sectionFallThrough c)).or
    (orWhen (s.due c && (s.core.cl c).mode = .entryWait && s.entryReason c = 0 && s.core.waitsMet c (s.header c)) (.entryWaitMet c))

/-- A wait of the cluster ends on this cycle, or raises a fault. -/
def State.waitOver (s : State) (c : Cluster) : Bool :=
  match (s.core.cl c).wait with
  | none => false
  | some w => match s.tryWait c w with
    | .hold => false
    | _ => true

/-- The turn of a cluster. -/
def State.turn (s : State) (c : Cluster) : Option Instr :=
  let k := s.core.cl c
  if s.leavesNow c then some (.sectionFallThrough c)
  else if s.due c && k.mode = .entryWait && s.entryReason c ≠ 0 then some (.entryWaitMet c)
  else if s.open c && (k.mode = .running || k.wait = some .held) then some (.idleExpiry c)
  else if s.core.cursor ≤ c.idx && k.mode = .instrWait && s.waitOver c then some (.waitConditionMet c)
  else none

/-- The clusters of the running core on this cycle. A fault that an engine has found is taken before any word (R318). Every cluster
leaves or enters its section before a word issues, so that a JSEC of S sees a steer cleared on its own cycle (R118, R137; DEDUCED,
unsafe, log entry 71). -/
def State.corePick (s : State) : Option Instr :=
  let cs := [Cluster.S, .L, .M, .W]
  (orWhen (s.core.stepRem = some 0) .debugStepExpiry).or
    (((cs.find? fun c => (s.checkFault c).isSome).map Instr.idleExpiry).or
      ((cs.findSome? s.prepare).or
        ((orWhen (s.core.cursor = 0 && (s.joinFault.isSome || s.core.quartetReady)) .joinedQuartetStart).or
          ((orWhen s.quietNow .quietPoint).or (cs.findSome? s.turn)))))

/-- The shadow context runs (R352). The header of a section that it has entered is checked before its words are counted (R79, R80). -/
def State.shadowPick (s : State) : Option Instr :=
  let sh := s.core.shadow
  let stopped := s.core.freeze.any fun f => f = .stopped || f = .reload || f = .buffer
  if sh.active && s.core.freeze.contains .handler && !stopped && sh.idleRem = 0 then
    if !sh.unchecked && sh.word.toNat ≥ (headerAt s.activePlane sh.hdr).len then some (.sectionFallThrough .S) else some (.idleExpiry .S)
  else none

/-! ## A word placed where the next step fetches -/

/-- The header of a free section of one word for a cluster, with no waits (R75, R76). -/
def oneWordHeader (c : Cluster) : Header :=
  let h : Header := 10#4 ++ BitVec.ofNat 3 c.idx ++ 0#1 ++ 0#10 ++ 0x3FF#10 ++ 0x3FF#10 ++ 0x3FF#10 ++ 1#12 ++ 0#4
  h ||| BitVec.ofNat 64 h.nibbles

/-- The cluster whose sections hold an opcode: the first one, where several do (R70). -/
def clusterFor (opc : Nat) : Cluster := ([Cluster.S, .L, .M, .W].find? (opCluster opc)).getD .S

/-- A cluster that stands before word 0 of the section at offset 0. -/
def ClusterSt.beforeWord (k : ClusterSt) : ClusterSt :=
  { k with sec := 0, word := 0, hdr := 0, mode := .running, wait := none, idleRem := 0, issuedNow := false, unchecked := false }

/-- The active plane holds one section with one word, and the cluster that the word is for is about to issue it. ERET is a
word of the shadow context alone, so it is placed in a running handler. (DESIGN CHOICE, safe, log entry 1.) -/
def State.placeWord (s : State) (w : Nat) : State :=
  let opc := w / 2 ^ 88 % 256
  let cl := clusterFor opc
  let plane := toBytes 8 (oneWordHeader cl).toNat ++ toBytes 12 w
  let eret : Bool := opc = 0x11
  let c := s.core
  let sh := if eret then { c.shadow with active := true, sec := 0, word := 0, hdr := 0, idleRem := 0, unchecked := false }
    else { c.shadow with active := false }
  let c1 := (c.setCl cl (c.cl cl).beforeWord)
  { s with boot := .running, planes := s.planes.setIfInBounds c.active plane
           core := { c1 with shadow := sh, freeze := if eret then [.handler] else [], cursor := 0, issuing := some cl } }

/-! ## The choice -/

/-- The word that is ready to issue. -/
def State.issuingWord (s : State) (c : Cluster) : Except DecodeFault Instr :=
  if s.core.shadow.active then decodeFor .S s.fetchShadow else decodeFor c (s.fetch c)

/-- An event whose condition holds on this trunk cycle, else the next trunk cycle. Their order is DEDUCED (unsafe, log
entry 5). -/
def State.derived (s : State) : Instr :=
  (s.copyPick.or (s.slicePick.or (s.hostPick.or (s.crownPick.or
    (if s.core.freeze = [] then s.corePick else s.shadowPick))))).getD .trunkCycle

/-- An event that a device without a running chain takes note of: a wake when it is off; a firmware update, and the heat or the
coolant loss that powers it off, when its chain has stopped (R390, R393). -/
def heardBy : Boot → Instr → Bool
  | .off, .hostWake _ => true
  | .stopped _ _, .firmwareUpdate _ => true
  | .stopped _ _, .thermalPowerOff => true
  | _, _ => false

/-- What the machine does next. -/
def State.pick (s : State) : Choice :=
  if s.boot ≠ .running then
    match s.agenda with
    | [] => .stop .poweredOff
    | e :: es => if heardBy s.boot e.2 then .run { s with agenda := es } e.2 else .drop { s with agenda := es }
  else
    match s.core.issuing with
    | some c =>
        match s.issuingWord c with
        | .ok i => .run s i
        | .error _ => .run { s with core := { s.core with issuing := none } } (.idleExpiry c)
    | none =>
        match s.agenda with
        | e :: es => if e.1 ≤ s.trunk then .run { s with agenda := es } e.2 else .run s s.derived
        | [] => .run s s.derived

end Sys2Proof.Machine
end

