-- ==== Sys2Proof/Machine/Dispatch.lean ====
section
/-! DEFINITION. One arm per step: each calls the meaning of its instruction or event. -/

namespace Sys2Proof.Machine

def exec (i : Instr) (s : State) : Host.Outcome State Fault Refusal :=
  match i with
  | .nop hd => Sys2Proof.Machine.execNop hd s
  | .idle hd n => Sys2Proof.Machine.execIdle hd n s
  | .br hd tgt sec => Sys2Proof.Machine.execBr hd tgt sec s
  | .brx hd g => Sys2Proof.Machine.execBrx hd g s
  | .call hd g tgt sec => Sys2Proof.Machine.execCall hd g tgt sec s
  | .ret hd g => Sys2Proof.Machine.execRet hd g s
  | .jsec hd t => Sys2Proof.Machine.execJsec hd t s
  | .jsecSteer hd c t => Sys2Proof.Machine.execJsecSteer hd c t s
  | .jsecPark hd c => Sys2Proof.Machine.execJsecPark hd c s
  | .loop hd g tgt sec => Sys2Proof.Machine.execLoop hd g tgt sec s
  | .loopx hd k e step tgt sec => Sys2Proof.Machine.execLoopx hd k e step tgt sec s
  | .waitt hd t => Sys2Proof.Machine.execWaitt hd t s
  | .halt hd => Sys2Proof.Machine.execHalt hd s
  | .quiet hd => Sys2Proof.Machine.execQuiet hd s
  | .yield hd => Sys2Proof.Machine.execYield hd s
  | .time hd g => Sys2Proof.Machine.execTime hd g s
  | .trunk hd g => Sys2Proof.Machine.execTrunk hd g s
  | .trap hd n => Sys2Proof.Machine.execTrap hd n s
  | .eret hd => Sys2Proof.Machine.execEret hd s
  | .bkpt hd tag => Sys2Proof.Machine.execBkpt hd tag s
  | .mfs hd g r => Sys2Proof.Machine.execMfs hd g r s
  | .mts hd r g => Sys2Proof.Machine.execMts hd r g s
  | .phdecl hd idx base size rd wr db tag => Sys2Proof.Machine.execPhdecl hd idx base size rd wr db tag s
  | .phdeclClear hd idx => Sys2Proof.Machine.execPhdeclClear hd idx s
  | .phsw hd g tag => Sys2Proof.Machine.execPhsw hd g tag s
  | .spill hd q a m => Sys2Proof.Machine.execSpill hd q a m s
  | .fill hd q m keep => Sys2Proof.Machine.execFill hd q m keep s
  | .fillDrop hd q => Sys2Proof.Machine.execFillDrop hd q s
  | .qwait hd q => Sys2Proof.Machine.execQwait hd q s
  | .qtest hd p q => Sys2Proof.Machine.execQtest hd p q s
  | .add hd d s1 s2 => Sys2Proof.Machine.execAdd hd d s1 s2 s
  | .sub hd d s1 s2 => Sys2Proof.Machine.execSub hd d s1 s2 s
  | .mul hd d s1 s2 => Sys2Proof.Machine.execMul hd d s1 s2 s
  | .mulh hd d s1 s2 => Sys2Proof.Machine.execMulh hd d s1 s2 s
  | .div hd d s1 s2 => Sys2Proof.Machine.execDiv hd d s1 s2 s
  | .rem hd d s1 s2 => Sys2Proof.Machine.execRem hd d s1 s2 s
  | .and hd d s1 s2 => Sys2Proof.Machine.execAnd hd d s1 s2 s
  | .or hd d s1 s2 => Sys2Proof.Machine.execOr hd d s1 s2 s
  | .xor hd d s1 s2 => Sys2Proof.Machine.execXor hd d s1 s2 s
  | .andn hd d s1 s2 => Sys2Proof.Machine.execAndn hd d s1 s2 s
  | .shl hd d s1 s2 => Sys2Proof.Machine.execShl hd d s1 s2 s
  | .shr hd d s1 s2 => Sys2Proof.Machine.execShr hd d s1 s2 s
  | .sar hd d s1 s2 => Sys2Proof.Machine.execSar hd d s1 s2 s
  | .rol hd d s1 s2 => Sys2Proof.Machine.execRol hd d s1 s2 s
  | .min hd d s1 s2 => Sys2Proof.Machine.execMin hd d s1 s2 s
  | .max hd d s1 s2 => Sys2Proof.Machine.execMax hd d s1 s2 s
  | .addi hd d s1 imm => Sys2Proof.Machine.execAddi hd d s1 imm s
  | .andImm hd d s1 imm => Sys2Proof.Machine.execAndImm hd d s1 imm s
  | .orImm hd d s1 imm => Sys2Proof.Machine.execOrImm hd d s1 imm s
  | .xorImm hd d s1 imm => Sys2Proof.Machine.execXorImm hd d s1 imm s
  | .andnImm hd d s1 imm => Sys2Proof.Machine.execAndnImm hd d s1 imm s
  | .shlImm hd d s1 imm => Sys2Proof.Machine.execShlImm hd d s1 imm s
  | .shrImm hd d s1 imm => Sys2Proof.Machine.execShrImm hd d s1 imm s
  | .sarImm hd d s1 imm => Sys2Proof.Machine.execSarImm hd d s1 imm s
  | .rolImm hd d s1 imm => Sys2Proof.Machine.execRolImm hd d s1 imm s
  | .minImm hd d s1 imm => Sys2Proof.Machine.execMinImm hd d s1 imm s
  | .maxImm hd d s1 imm => Sys2Proof.Machine.execMaxImm hd d s1 imm s
  | .clz hd d s1 => Sys2Proof.Machine.execClz hd d s1 s
  | .popc hd d s1 => Sys2Proof.Machine.execPopc hd d s1 s
  | .ldi hd d imm => Sys2Proof.Machine.execLdi hd d imm s
  | .sel hd d p s2 s3 => Sys2Proof.Machine.execSel hd d p s2 s3 s
  | .cmp hd p s1 s2 c => Sys2Proof.Machine.execCmp hd p s1 s2 c s
  | .fadds hd d s1 s2 => Sys2Proof.Machine.execFadds hd d s1 s2 s
  | .fmuls hd d s1 s2 => Sys2Proof.Machine.execFmuls hd d s1 s2 s
  | .ffmas hd d s1 s2 s3 => Sys2Proof.Machine.execFfmas hd d s1 s2 s3 s
  | .fcmps hd p s1 s2 c => Sys2Proof.Machine.execFcmps hd p s1 s2 c s
  | .fmins hd d s1 s2 => Sys2Proof.Machine.execFmins hd d s1 s2 s
  | .fmaxs hd d s1 s2 => Sys2Proof.Machine.execFmaxs hd d s1 s2 s
  | .lea hd a s1 imm => Sys2Proof.Machine.execLea hd a s1 imm s
  | .ainc hd a imm => Sys2Proof.Machine.execAinc hd a imm s
  | .movy hd op => Sys2Proof.Machine.execMovy hd op s
  | .movk hd op => Sys2Proof.Machine.execMovk hd op s
  | .pgand hd d a b => Sys2Proof.Machine.execPgand hd d a b s
  | .pgor hd d a b => Sys2Proof.Machine.execPgor hd d a b s
  | .pgxor hd d a b => Sys2Proof.Machine.execPgxor hd d a b s
  | .pgnot hd d a => Sys2Proof.Machine.execPgnot hd d a s
  | .pgmov hd d src => Sys2Proof.Machine.execPgmov hd d src s
  | .lds hd g a sz sx off => Sys2Proof.Machine.execLds hd g a sz sx off s
  | .sts hd g a sz off => Sys2Proof.Machine.execSts hd g a sz off s
  | .ldsx hd g a gi sz sx sc => Sys2Proof.Machine.execLdsx hd g a gi sz sx sc s
  | .stsx hd g a gi sz sc => Sys2Proof.Machine.execStsx hd g a gi sz sc s
  | .mma hd acc o => Sys2Proof.Machine.execMma hd acc o s
  | .mmas hd acc o => Sys2Proof.Machine.execMmas hd acc o s
  | .mmac hd m o => Sys2Proof.Machine.execMmac hd m o s
  | .mld hd m a part => Sys2Proof.Machine.execMld hd m a part s
  | .mst hd m a part => Sys2Proof.Machine.execMst hd m a part s
  | .mmov hd d src part => Sys2Proof.Machine.execMmov hd d src part s
  | .mzero hd m part => Sys2Proof.Machine.execMzero hd m part s
  | .mdrain hd acc a mcode ncode first grp => Sys2Proof.Machine.execMdrain hd acc a mcode ncode first grp s
  | .mchk hd d nxt => Sys2Proof.Machine.execMchk hd d nxt s
  | .mloc hd d g => Sys2Proof.Machine.execMloc hd d g s
  | .mfix hd d g => Sys2Proof.Machine.execMfix hd d g s
  | .mretry hd d => Sys2Proof.Machine.execMretry hd d s
  | .mtols hd a => Sys2Proof.Machine.execMtols hd a s
  | .acalloc hd acc zero count1 => Sys2Proof.Machine.execAcalloc hd acc zero count1 s
  | .acfree hd acc count1 => Sys2Proof.Machine.execAcfree hd acc count1 s
  | .acband hd acc owners => Sys2Proof.Machine.execAcband hd acc owners s
  | .acrd hd acc a mcode ncode first grp => Sys2Proof.Machine.execAcrd hd acc a mcode ncode first grp s
  | .acwr hd acc a mcode ncode first => Sys2Proof.Machine.execAcwr hd acc a mcode ncode first s
  | .aczero hd acc mcode ncode first => Sys2Proof.Machine.execAczero hd acc mcode ncode first s
  | .scld hd a kcode off => Sys2Proof.Machine.execScld hd a kcode off s
  | .vadd hd v => Sys2Proof.Machine.execVadd hd v s
  | .vsub hd v => Sys2Proof.Machine.execVsub hd v s
  | .vmul hd v => Sys2Proof.Machine.execVmul hd v s
  | .vfma hd v => Sys2Proof.Machine.execVfma hd v s
  | .vmax hd v => Sys2Proof.Machine.execVmax hd v s
  | .vmin hd v => Sys2Proof.Machine.execVmin hd v s
  | .vabs hd v => Sys2Proof.Machine.execVabs hd v s
  | .vneg hd v => Sys2Proof.Machine.execVneg hd v s
  | .vclamp hd v => Sys2Proof.Machine.execVclamp hd v s
  | .vrcp hd v => Sys2Proof.Machine.execVrcp hd v s
  | .vrsqrt hd v => Sys2Proof.Machine.execVrsqrt hd v s
  | .vsqrt hd v => Sys2Proof.Machine.execVsqrt hd v s
  | .vexp2 hd v => Sys2Proof.Machine.execVexp2 hd v s
  | .vlog2 hd v => Sys2Proof.Machine.execVlog2 hd v s
  | .vtanh hd v => Sys2Proof.Machine.execVtanh hd v s
  | .vrsum hd v => Sys2Proof.Machine.execVrsum hd v s
  | .vrmax hd v => Sys2Proof.Machine.execVrmax hd v s
  | .vrmin hd v => Sys2Proof.Machine.execVrmin hd v s
  | .vscan hd v => Sys2Proof.Machine.execVscan hd v s
  | .vcmp hd v => Sys2Proof.Machine.execVcmp hd v s
  | .vsel hd v => Sys2Proof.Machine.execVsel hd v s
  | .vcompact hd v => Sys2Proof.Machine.execVcompact hd v s
  | .viota hd v => Sys2Proof.Machine.execViota hd v s
  | .vtopk hd v => Sys2Proof.Machine.execVtopk hd v s
  | .vgather hd v => Sys2Proof.Machine.execVgather hd v s
  | .vbcast hd v => Sys2Proof.Machine.execVbcast hd v s
  | .vmov hd v => Sys2Proof.Machine.execVmov hd v s
  | .vand hd v => Sys2Proof.Machine.execVand hd v s
  | .vor hd v => Sys2Proof.Machine.execVor hd v s
  | .vxor hd v => Sys2Proof.Machine.execVxor hd v s
  | .vshl hd v => Sys2Proof.Machine.execVshl hd v s
  | .vshr hd v => Sys2Proof.Machine.execVshr hd v s
  | .vrand hd v => Sys2Proof.Machine.execVrand hd v s
  | .vcbx hd v => Sys2Proof.Machine.execVcbx hd v s
  | .cbld hd bank a count1 ebytes1 => Sys2Proof.Machine.execCbld hd bank a count1 ebytes1 s
  | .cbwait hd bank => Sys2Proof.Machine.execCbwait hd bank s
  | .cbsave hd bank a => Sys2Proof.Machine.execCbsave hd bank a s
  | .cbrest hd bank => Sys2Proof.Machine.execCbrest hd bank s
  | .cbchk hd p bank => Sys2Proof.Machine.execCbchk hd p bank s
  | .ftset hd n g => Sys2Proof.Machine.execFtset hd n g s
  | .cpin hd o => Sys2Proof.Machine.execCpin hd o s
  | .cpin2 hd o pitch rowlines1 => Sys2Proof.Machine.execCpin2 hd o pitch rowlines1 s
  | .gather hd o list rowlines1 => Sys2Proof.Machine.execGather hd o list rowlines1 s
  | .pfetch hd h goff units tok => Sys2Proof.Machine.execPfetch hd h goff units tok s
  | .pfwait hd g tok => Sys2Proof.Machine.execPfwait hd g tok s
  | .pfpin hd h goff units tok => Sys2Proof.Machine.execPfpin hd h goff units tok s
  | .pfunpin hd h goff units => Sys2Proof.Machine.execPfunpin hd h goff units s
  | .discard hd h goff units tok => Sys2Proof.Machine.execDiscard hd h goff units tok s
  | .slotrdEntry hd g group slot => Sys2Proof.Machine.execSlotrdEntry hd g group slot s
  | .slotrdGap hd g group => Sys2Proof.Machine.execSlotrdGap hd g group s
  | .slotrdLat hd g => Sys2Proof.Machine.execSlotrdLat hd g s
  | .xlate hd h g => Sys2Proof.Machine.execXlate hd h g s
  | .hdrop hd h => Sys2Proof.Machine.execHdrop hd h s
  | .htest hd g h => Sys2Proof.Machine.execHtest hd g h s
  | .hmov hd d src => Sys2Proof.Machine.execHmov hd d src s
  | .pst hd o => Sys2Proof.Machine.execPst hd o s
  | .padd hd o sat => Sys2Proof.Machine.execPadd hd o sat s
  | .pmax hd o => Sys2Proof.Machine.execPmax hd o s
  | .pmin hd o => Sys2Proof.Machine.execPmin hd o s
  | .pxor hd o => Sys2Proof.Machine.execPxor hd o s
  | .por hd o => Sys2Proof.Machine.execPor hd o s
  | .pand hd o => Sys2Proof.Machine.execPand hd o s
  | .pinv hd h name => Sys2Proof.Machine.execPinv hd h name s
  | .pdrop hd p h name => Sys2Proof.Machine.execPdrop hd p h name s
  | .pcomm hd p h na nb => Sys2Proof.Machine.execPcomm hd p h na nb s
  | .pxpl hd h goff name src => Sys2Proof.Machine.execPxpl hd h goff name src s
  | .psq hd h => Sys2Proof.Machine.execPsq hd h s
  | .pmrg hd p h na nb => Sys2Proof.Machine.execPmrg hd p h na nb s
  | .ppub hd scope => Sys2Proof.Machine.execPpub hd scope s
  | .pwait hd => Sys2Proof.Machine.execPwait hd s
  | .pname hd g => Sys2Proof.Machine.execPname hd g s
  | .psnapOn hd h => Sys2Proof.Machine.execPsnapOn hd h s
  | .psnapOff hd h => Sys2Proof.Machine.execPsnapOff hd h s
  | .fenceAcq hd scope => Sys2Proof.Machine.execFenceAcq hd scope s
  | .fenceRel hd scope => Sys2Proof.Machine.execFenceRel hd scope s
  | .fenceAcqrel hd scope => Sys2Proof.Machine.execFenceAcqrel hd scope s
  | .fset hd f v o => Sys2Proof.Machine.execFset hd f v o s
  | .fadd hd g f v o => Sys2Proof.Machine.execFadd hd g f v o s
  | .fwait hd g f v o => Sys2Proof.Machine.execFwait hd g f v o s
  | .fget hd g f o => Sys2Proof.Machine.execFget hd g f o s
  | .bara hd b scope => Sys2Proof.Machine.execBara hd b scope s
  | .barw hd g b v scope => Sys2Proof.Machine.execBarw hd g b v scope s
  | .kick hd g a crit => Sys2Proof.Machine.execKick hd g a crit s
  | .kwait hd g => Sys2Proof.Machine.execKwait hd g s
  | .swap hd g => Sys2Proof.Machine.execSwap hd g s
  | .taskend hd => Sys2Proof.Machine.execTaskend hd s
  | .cvt hd d src sat sf df mode => Sys2Proof.Machine.execCvt hd d src sat sf df mode s
  | .fclass hd d src fmt => Sys2Proof.Machine.execFclass hd d src fmt s
  | .vcvt hd v => Sys2Proof.Machine.execVcvt hd v s
  | .vquant hd v => Sys2Proof.Machine.execVquant hd v s
  | .vdeq hd v => Sys2Proof.Machine.execVdeq hd v s
  | .vbscl hd v => Sys2Proof.Machine.execVbscl hd v s
  | .vpack hd v => Sys2Proof.Machine.execVpack hd v s
  | .vunpack hd v => Sys2Proof.Machine.execVunpack hd v s
  | .chkerr hd g clr => Sys2Proof.Machine.execChkerr hd g clr s
  | .idleExpiry c => Sys2Proof.Machine.execIdleExpiry c s
  | .waitConditionMet c => Sys2Proof.Machine.execWaitConditionMet c s
  | .sectionFallThrough c => Sys2Proof.Machine.execSectionFallThrough c s
  | .entryWaitMet c => Sys2Proof.Machine.execEntryWaitMet c s
  | .revocationMarker tenant va => Sys2Proof.Machine.execRevocationMarker tenant va s
  | .pageRelease tenant va => Sys2Proof.Machine.execPageRelease tenant va s
  | .drawerUnitArrival id unit => Sys2Proof.Machine.execDrawerUnitArrival id unit s
  | .linkRetrainComplete group => Sys2Proof.Machine.execLinkRetrainComplete group s
  | .linkGroupDown group => Sys2Proof.Machine.execLinkGroupDown group s
  | .copyInCompletion id => Sys2Proof.Machine.execCopyInCompletion id s
  | .prefetchDone tok => Sys2Proof.Machine.execPrefetchDone tok s
  | .patchArrival id => Sys2Proof.Machine.execPatchArrival id s
  | .patchReoffer id => Sys2Proof.Machine.execPatchReoffer id s
  | .patchAnswer id => Sys2Proof.Machine.execPatchAnswer id s
  | .sealLineUpdate tenant peer => Sys2Proof.Machine.execSealLineUpdate tenant peer s
  | .operationPacketArrival p => Sys2Proof.Machine.execOperationPacketArrival p s
  | .sourceCloseExpiry source => Sys2Proof.Machine.execSourceCloseExpiry source s
  | .podReleaseAck head id => Sys2Proof.Machine.execPodReleaseAck head id s
  | .releaseComplete id => Sys2Proof.Machine.execReleaseComplete id s
  | .checkpointCopyAdvance tid => Sys2Proof.Machine.execCheckpointCopyAdvance tid s
  | .asyncEventArrival e => Sys2Proof.Machine.execAsyncEventArrival e s
  | .throttleBubble n => Sys2Proof.Machine.execThrottleBubble n s
  | .submitLaunch tenant seq l => Sys2Proof.Machine.execSubmitLaunch tenant seq l s
  | .cancelLaunch tenant seq id => Sys2Proof.Machine.execCancelLaunch tenant seq id s
  | .takeCheckpoint tenant seq tids => Sys2Proof.Machine.execTakeCheckpoint tenant seq tids s
  | .loadCheckpoint tenant seq c => Sys2Proof.Machine.execLoadCheckpoint tenant seq c s
  | .attestation tenant seq nonce => Sys2Proof.Machine.execAttestation tenant seq nonce s
  | .debuggerAttach tenant seq on => Sys2Proof.Machine.execDebuggerAttach tenant seq on s
  | .replayCompletions tenant seq start => Sys2Proof.Machine.execReplayCompletions tenant seq start s
  | .doorbell tenant es => Sys2Proof.Machine.execDoorbell tenant es s
  | .hiverWrite hmaj hmin => Sys2Proof.Machine.execHiverWrite hmaj hmin s
  | .flagFileGrant launch => Sys2Proof.Machine.execFlagFileGrant launch s
  | .flagFileSave launch => Sys2Proof.Machine.execFlagFileSave launch s
  | .walkPointReached launch record => Sys2Proof.Machine.execWalkPointReached launch record s
  | .taskDispatch launch ix core => Sys2Proof.Machine.execTaskDispatch launch ix core s
  | .contextRestore slot => Sys2Proof.Machine.execContextRestore slot s
  | .taskRetirement tenant ix => Sys2Proof.Machine.execTaskRetirement tenant ix s
  | .strikeReport zone => Sys2Proof.Machine.execStrikeReport zone s
  | .eccUncorrectable u => Sys2Proof.Machine.execEccUncorrectable u s
  | .debugStep n => Sys2Proof.Machine.execDebugStep n s
  | .debugWriteState w => Sys2Proof.Machine.execDebugWriteState w s
  | .hostWake flash => Sys2Proof.Machine.execHostWake flash s
  | .ualinkTraining station t => Sys2Proof.Machine.execUalinkTraining station t s
  | .ualinkLinkDown station => Sys2Proof.Machine.execUalinkLinkDown station s
  | .tenantJoin station c => Sys2Proof.Machine.execTenantJoin station c s
  | .tenantTeardown tenant => Sys2Proof.Machine.execTenantTeardown tenant s
  | .tenantCreation tenant subQ compQ faultQ pages => Sys2Proof.Machine.execTenantCreation tenant subQ compQ faultQ pages s
  | .linkGroupRetrain group => Sys2Proof.Machine.execLinkGroupRetrain group s
  | .firmwareUpdate flash => Sys2Proof.Machine.execFirmwareUpdate flash s
  | .joinedQuartetStart => Sys2Proof.Machine.execJoinedQuartetStart s
  | .faultQueueCopy => Sys2Proof.Machine.execFaultQueueCopy s
  | .translationInstall => Sys2Proof.Machine.execTranslationInstall s
  | .copyCommandStart => Sys2Proof.Machine.execCopyCommandStart s
  | .phaseFinal => Sys2Proof.Machine.execPhaseFinal s
  | .quietPoint => Sys2Proof.Machine.execQuietPoint s
  | .coreResume => Sys2Proof.Machine.execCoreResume s
  | .preemptionRequest => Sys2Proof.Machine.execPreemptionRequest s
  | .contextSave => Sys2Proof.Machine.execContextSave s
  | .haltRetirement => Sys2Proof.Machine.execHaltRetirement s
  | .kickPlacement => Sys2Proof.Machine.execKickPlacement s
  | .spilledKickEntersPool => Sys2Proof.Machine.execSpilledKickEntersPool s
  | .crownTakeover => Sys2Proof.Machine.execCrownTakeover s
  | .debugResume => Sys2Proof.Machine.execDebugResume s
  | .debugStepExpiry => Sys2Proof.Machine.execDebugStepExpiry s
  | .thermalPowerOff => Sys2Proof.Machine.execThermalPowerOff s
  | .trunkCycle => Sys2Proof.Machine.execTrunkCycle s
  | .launchCompletion => Sys2Proof.Machine.execLaunchCompletion s
  | .planeLoad => Sys2Proof.Machine.execPlaneLoad s
  | .planeWordError => Sys2Proof.Machine.execPlaneWordError s

end Sys2Proof.Machine
end

