-- ==== Sys2Proof/Machine/Step.lean ====
section
/-! DEFINITION. One step of the machine. -/

namespace Sys2Proof.Machine

/-- The step that `State.pick` chooses. -/
def step (s : State) : Host.Outcome State Fault Refusal :=
  match s.pick with
  | .stop f => .fault f
  | .drop s1 => .next s1
  | .run s1 i => exec i s1

/-- `s` with a word of 96 bits stored where the next step fetches it. -/
def State.withFetchWord (s : State) (_nbits w : Nat) : State := s.placeWord w

end Sys2Proof.Machine
end

