-- ==== Sys2Proof/Safety.lean ====
section
/-! DEFINITION. When a word issues with its effect, what a run keeps, and when a run is safe, in the terms that claims use. -/

namespace Sys2Proof.Machine

/-! ## Issue -/

/-- A word issues with its effect: it may stand where it stands (R117, R353) and its guard is true (R59). -/
abbrev State.Issues (s : State) (hd : Head) (opc : Nat) (wh : Where) : Prop :=
  wh.refuses (Issue.of s hd opc) = false ∧ s.guard (Issue.of s hd opc) hd = true

/-- A word issues in a free section of the running core. -/
abbrev State.IssuesFree (s : State) (hd : Head) (opc : Nat) : Prop :=
  (Issue.of s hd opc).joined = false ∧ s.core.shadow.active = false ∧ s.guard (Issue.of s hd opc) hd = true

/-- A schedule passes bounds, regions, tags and the calendar (R172 to R181), none of its lines is locked (R174), and the old
contents of what it writes fit the rollback area (R372). -/
abbrev State.Passes (s : State) (i : Issue) (e : Nat) (plan : List Planned) : Prop :=
  s.checkPlan i e (sortPlan plan) = none ∧ (∀ p ∈ plan, s.core.rangeLocked p.addr.toNat p.len = false) ∧
    (s.touch (((sortPlan plan).filter (·.write)).flatMap fun p => unitsOf .ls p.addr.toNat p.len)).isSome = true

/-- The listed acts, and no others, have joined the timeline, all for the word that issued. -/
def State.Adds (s t : State) (acts : List (Nat × Act)) : Prop :=
  ∃ q, t.core.timeline = (acts.map fun x => (⟨x.1, q, x.2⟩ : Entry)).reverse ++ s.core.timeline

/-- Units of core state that a word is to write fit the rollback area (R372). -/
abbrev State.Fits (s : State) (us : List Nat) : Prop := (s.touch us).isSome = true

/-! ## What stays as it was -/

/-- Every register file of R142 and the shadow context's own registers (R144) hold the same values. -/
def Core.SameRegisters (c d : Core) : Prop :=
  (∀ k, (d.cl k).g = (c.cl k).g ∧ (d.cl k).a = (c.cl k).a ∧ (d.cl k).p = (c.cl k).p) ∧
    d.y = c.y ∧ d.k = c.k ∧ d.h = c.h ∧ d.q = c.q ∧ d.cb = c.cb ∧ d.shadow.g = c.shadow.g ∧ d.shadow.p = c.shadow.p

/-- Every system register of R153 that does not follow time holds the same value. -/
def Core.SameSystem (c d : Core) : Prop :=
  d.cir = c.cir ∧ d.clag = c.clag ∧ d.nest = c.nest ∧ d.lcore = c.lcore ∧ d.pcore = c.pcore ∧ d.plane = c.plane ∧
    d.prio = c.prio ∧ d.tenant = c.tenant ∧ d.traprec = c.traprec ∧ d.mxret = c.mxret ∧ d.ftab = c.ftab ∧
    d.tol = c.tol ∧ d.fij = c.fij ∧ d.kend = c.kend

/-- Accumulator allocation, owners, checksum lanes and codebook banks are the same (R278, R290, R312). -/
def Core.SameBanks (c d : Core) : Prop :=
  d.allocated = c.allocated ∧ d.owner = c.owner ∧ d.accLanes = c.accLanes ∧ d.mrLanes = c.mrLanes ∧ d.banks = c.banks

/-- Every byte of every memory of the core reads as before, and so does every byte behind a handle. -/
def State.SameMemory (s t : State) : Prop :=
  (∀ m a, (t.core.mem m).get a = (s.core.mem m).get a) ∧ ∀ a, t.gmem.get a = s.gmem.get a

/-- Nothing that a program can read has changed but what waits on the timeline. -/
def State.SameContents (s t : State) : Prop :=
  s.core.SameRegisters t.core ∧ s.core.SameSystem t.core ∧ s.core.SameBanks t.core ∧ s.SameMemory t

/-! ## Invariants -/

/-- Every memory of a core is in canonical form. -/
def Core.MemoryForm (c : Core) : Prop := ∀ m, (c.mem m).wf = true

/-- Every memory of the part is in canonical form, in the core, in saved contexts and in rollback points alike. -/
def State.MemoryForm (s : State) : Prop :=
  s.core.MemoryForm ∧ s.gmem.wf = true ∧ (∀ x ∈ s.saved, x.core.MemoryForm) ∧ ∀ n ∈ s.snaps, n.core.MemoryForm

/-- A cluster's hard-wired registers: g0 is zero and p0 is true (R143). -/
def ClusterSt.HardWired (k : ClusterSt) : Prop := k.readG 0 = 0 ∧ k.readP 0 = true

/-! ## Safe runs -/

/-- A run of `n` steps stops nowhere. -/
def runsSafely : Nat → State → Prop
  | 0, _ => True
  | n + 1, s => ∃ t, step s = .next t ∧ runsSafely n t

end Sys2Proof.Machine
end

