-- ==== Sys2Proof/Certificates/Slice0/Obligations.lean ====
section
/-! DEFINITION. The statements about this model that are put to the provers. -/

open Sys2Proof Sys2Proof.Machine

/-- Eighteen instruction words whose bits the spec's own chapters write out (the worked encodings of R63 to R69)
decode to the instruction, with every operand, that the spec says they stand for. (R63, R64, R65, R66, R67, R68, R69,
R138, R164) -/
def Obligations.DecodeWords : Prop :=
  let hd : Head := ⟨0, false, 0⟩
  decodeTableWord 96 0x600000004121000100110000 = some (.vadd hd ⟨4, 1, 2, 0x100, 0, 0x100, 1, 0x100, 0⟩) ∧
  decodeTableWord 96 0xD00000040301020000000000 = some (.cvt hd 4 (.g 3) false 1 2 0) ∧
  decodeTableWord 96 0x0800000500101C0000000000 = some (.loop hd 5 1 7) ∧
  decodeTableWord 96 0x1704C0C22503000000000000 = some (.spill ⟨19, false, 0⟩ 2 5 3) ∧
  decodeTableWord 96 0x15000000002080001F107800 = some (.phdecl hd 2 0x200 0x1F 2 1 true true) ∧
  decodeTableWord 96 0x900000090C10000080004000 = some (.cpin hd ⟨1, 2, 3, 0x40, 2, 1, 0⟩) ∧
  decodeTableWord 96 0xB01000191000000CA0000000 = some (.padd hd ⟨3, 2, 4, 0, 0, 3, 5, 0⟩ false) ∧
  decodeTableWord 96 0xB600000800000000C7010000 = some (.pmrg hd 1 1 6 7) ∧
  decodeTableWord 96 0xC10000095000000000000800 = some (.fset hd 9 (.imm 1) ⟨2, 2⟩) ∧
  decodeTableWord 96 0xD20580004130400100200841 = some (.vquant ⟨22, false, 0⟩ ⟨4, 1, 3, 0x40, 0, 0x100, 2, 8, 0x41⟩) ∧
  decodeTableWord 96 0x5300001440001F0000000082 = some (.acrd hd 5 4 3 7 0x20 2) ∧
  decodeTableWord 96 0x800000E1230F0E0000000000 = some (.cbld hd 1 3 15 7) ∧
  decodeTableWord 96 0x4000001400843F3C00002880 = some (.mma hd 5 ⟨.ls 0, .ls 2, 1, false, 0, 7, 7, 15, 40, true⟩) ∧
  decodeTableWord 96 0x4100000000403D1C00008C00 = some (.mmas hd 0 ⟨.ls 0, .ls 1, 0, false, 0, 7, 5, 7, 140, false⟩) ∧
  decodeTableWord 96 0x63468000115000410060000F = some (.vtopk ⟨26, false, 0⟩ ⟨1, 1, 5, 0, 4, 0x100, 6, 0, 15⟩) ∧
  decodeTableWord 96 0x6604C0001181000000000002 = some (.vrand ⟨19, false, 0⟩ ⟨1, 1, 8, 0x100, 0, 0, 0, 0, 2⟩) ∧
  decodeTableWord 96 0xC70000000019200000000800 = some (.kick hd 3 4 true) ∧
  decodeTableWord 96 0xE00000000038000000000800 = some (.chkerr hd 7 true)

/-- For every well-formed instruction that has a word (every row of the opcode table that is a word; events have
none), decoding the word that the encoder gives is that instruction, with every operand at every value its encoding
admits. (R56, R60, R62, R63, R70, R71, R74) -/
def Obligations.DecodeEncode : Prop :=
  ∀ (i : Instr) (w : IWord), WellFormed i → encode i = some w → decodeWord w = .ok i

/-- A word whose 96 bits are zero is ZERO WORD; any other word is ILLEGAL WORD, with reason 1 where its opcode is
unassigned, reason 2 where the function is unassigned for the opcode, and reason 3 where the open section's kind may
not hold the opcode, and nothing else is checked before these. The status word has the reason in [31:24], the opcode
in [23:16] and the function in [15:12]. (R72, R73, R74) -/
def Obligations.DecodeFaults : Prop :=
  (∀ c, decodeFor c 0 = .error .zeroWord) ∧
  (∀ (c : Cluster) (w : IWord), w ≠ 0 →
    let o := (w.extractLsb' 88 8).toNat
    let f := (w.extractLsb' 84 4).toNat
    (opFns o = 0 → decodeFor c w = .error (.illegal 1 o f 0)) ∧
    (opFns o ≠ 0 → (opFns o).testBit f = false → decodeFor c w = .error (.illegal 2 o f 0)) ∧
    ((opFns o).testBit f = true → opCluster o c = false → decodeFor c w = .error (.illegal 3 o f 0))) ∧
  (∀ (at_ : Place) (r o f b : Nat), r < 256 → o < 256 → f < 16 → b < 128 →
    (decodeInfo (.illegal r o f b) at_).code = 0x01 ∧ (decodeInfo (.illegal r o f b) at_).engine = 8 ∧
    (decodeInfo (.illegal r o f b) at_).at_ = at_ ∧
    (decodeInfo (.illegal r o f b) at_).status = BitVec.ofNat 32 (r * 2 ^ 24 + o * 2 ^ 16 + f * 2 ^ 12 + b)) ∧
  (∀ at_ : Place, (decodeInfo .zeroWord at_).code = 0x02 ∧ (decodeInfo .zeroWord at_).status = 0)

/-- While the boot chain has completed and a cluster is about to issue, the step is exec of the instruction that the
decoder reads at that cluster's word index of its open section (of the handler's section in the shadow context), on
the very state: moving on to the next word is exec's own part. (R57, R72) -/
def Obligations.StepRunsWord : Prop :=
  ∀ (s : State) (c : Cluster) (i : Instr), s.boot = .running → s.core.issuing = some c →
    ((s.core.shadow.active = false ∧
        decodeFor c (planeWord s.activePlane (s.core.cl c).hdr (s.core.cl c).word.toNat) = .ok i) ∨
      (s.core.shadow.active = true ∧
        decodeFor .S (planeWord s.activePlane s.core.shadow.hdr s.core.shadow.word.toNat) = .ok i)) →
    step s = exec i s

/-- For every word that the decoder accepts, the next step after withFetchWord has placed it is exec of the decoded
instruction on the state in which it was placed. (withFetchWord stands for the loading of a program, log entry 1.)
(R57, R72, R76) -/
def Obligations.StepRunsPlacedWord : Prop :=
  ∀ (i : Instr) (w : IWord) (s : State), decodeWord w = .ok i →
    step (s.withFetchWord 96 w.toNat) = exec i (s.withFetchWord 96 w.toNat)

/-- While the boot chain runs, every step has a next state: a word that does not decode, a fault of any kind and an
event whose condition does not hold are all taken as the spec describes. A part without a running chain stops only
when nothing from outside is to come. That an event whose condition does not hold changes nothing is the model's
choice (log entry 7), and so is what a part without a running chain does (log entry 32). (R72, R348, R390) -/
def Obligations.StepContinues : Prop :=
  (∀ s : State, s.boot = .running → ∃ t, step s = .next t) ∧
  (∀ s : State, s.boot ≠ .running → s.agenda = [] → step s = .fault .poweredOff) ∧
  (∀ s : State, s.boot ≠ .running → s.agenda ≠ [] → ∃ t, step s = .next t)

/-- ADD, SUB, MUL, MULH, DIV, REM, AND, OR, XOR, ANDN, SHL, SHR, SAR, ROL, MIN and MAX, wherever they may issue and
with their guard true: the word issues, and its one effect is the write of g[D] at the offset of R146 (1; 3 for MUL
and MULH; 18 for DIV and REM) with the result of R156, computed from both sources as they stand on the issue cycle.
Shift counts are taken modulo 64; division truncates; a zero divisor gives all ones and the dividend. With a zero
divisor DIV gives all ones and REM the dividend; the most negative number divided by -1 gives itself, with remainder
0; and the remainder has the sign of the dividend: -7 divided by 2 gives -3 with remainder -1. (R59, R145, R146, R155,
R156) -/
def Obligations.IntegerWordsComplete : Prop :=
  (∀ (hd : Head) (d : BitVec 5) (x y : Src) (s : State), s.Issues hd 0x20 .both →
      let i := Issue.of s hd 0x20
      let a := s.readSrc i x
      let b := s.readSrc i y
      let n := b.toNat % 64
      let gives := fun (w : Instr) (o : Nat) (v : Word) => exec w s = .next ((s.advance i).writeGAfter i o d v)
      gives (.add hd d x y) 1 (a + b) ∧ gives (.sub hd d x y) 1 (a - b) ∧ gives (.mul hd d x y) 3 (a * b) ∧
      gives (.mulh hd d x y) 3 (BitVec.ofInt 64 (a.toInt * b.toInt / 2 ^ 64)) ∧
      gives (.div hd d x y) 18 (if b = 0 then BitVec.allOnes 64 else BitVec.ofInt 64 (a.toInt.tdiv b.toInt)) ∧
      gives (.rem hd d x y) 18 (if b = 0 then a else BitVec.ofInt 64 (a.toInt.tmod b.toInt)) ∧
      gives (.and hd d x y) 1 (a &&& b) ∧ gives (.or hd d x y) 1 (a ||| b) ∧ gives (.xor hd d x y) 1 (a ^^^ b) ∧
      gives (.andn hd d x y) 1 (a &&& ~~~b) ∧ gives (.shl hd d x y) 1 (a <<< n) ∧ gives (.shr hd d x y) 1 (a >>> n) ∧
      gives (.sar hd d x y) 1 (a.sshiftRight n) ∧ gives (.rol hd d x y) 1 (a.rotateLeft n) ∧
      gives (.min hd d x y) 1 (if a.toInt ≤ b.toInt then a else b) ∧
      gives (.max hd d x y) 1 (if a.toInt ≤ b.toInt then b else a)) ∧
  ((∀ a : Word, divWord a 0 = BitVec.allOnes 64 ∧ remWord a 0 = a) ∧
    divWord (BitVec.intMin 64) (-1) = BitVec.intMin 64 ∧ remWord (BitVec.intMin 64) (-1) = 0 ∧
    divWord (-7) 2 = -3 ∧ remWord (-7) 2 = -1 ∧ remWord 7 (-2) = 1)

/-- ADDI, the immediate forms of AND, OR, XOR, ANDN, SHL, SHR, SAR, ROL, MIN and MAX, and CLZ, POPC, LDI and SEL write
g[D] on t + 1 with the result of R156; the immediate is the 56-bit field sign-extended. CLZ counts the zeros above the
highest one (64 for zero), POPC the ones, and SEL chooses by the predicate. (R59, R145, R146, R155, R156) -/
def Obligations.ImmediateWordsComplete : Prop :=
  ∀ (hd : Head) (d p : BitVec 5) (x y : Src) (imm : BitVec 56) (s : State),
    (s.Issues hd 0x21 .both →
      let i := Issue.of s hd 0x21
      let a := s.readSrc i x
      let b := imm.signExtend 64
      let n := b.toNat % 64
      let gives := fun (w : Instr) (v : Word) => exec w s = .next ((s.advance i).writeGAfter i 1 d v)
      gives (.addi hd d x imm) (a + b) ∧ gives (.andImm hd d x imm) (a &&& b) ∧ gives (.orImm hd d x imm) (a ||| b) ∧
      gives (.xorImm hd d x imm) (a ^^^ b) ∧ gives (.andnImm hd d x imm) (a &&& ~~~b) ∧
      gives (.shlImm hd d x imm) (a <<< n) ∧ gives (.shrImm hd d x imm) (a >>> n) ∧
      gives (.sarImm hd d x imm) (a.sshiftRight n) ∧ gives (.rolImm hd d x imm) (a.rotateLeft n) ∧
      gives (.minImm hd d x imm) (if a.toInt ≤ b.toInt then a else b) ∧
      gives (.maxImm hd d x imm) (if a.toInt ≤ b.toInt then b else a)) ∧
    (s.Issues hd 0x22 .both →
      let i := Issue.of s hd 0x22
      let a := s.readSrc i x
      (∃ n, exec (.clz hd d x) s = .next ((s.advance i).writeGAfter i 1 d (BitVec.ofNat 64 n)) ∧ n ≤ 64 ∧
        (∀ j, 64 - n ≤ j → j < 64 → a.getLsbD j = false) ∧ (n < 64 → a.getLsbD (63 - n) = true)) ∧
      exec (.popc hd d x) s =
        .next ((s.advance i).writeGAfter i 1 d (BitVec.ofNat 64 ((List.range 64).filter fun j => a.getLsbD j).length))) ∧
    (s.Issues hd 0x23 .both →
      let i := Issue.of s hd 0x23
      exec (.ldi hd d imm) s = .next ((s.advance i).writeGAfter i 1 d (imm.signExtend 64))) ∧
    (s.Issues hd 0x24 .both →
      let i := Issue.of s hd 0x24
      exec (.sel hd d p x y) s =
        .next ((s.advance i).writeGAfter i 1 d (if s.readP i p then s.readSrc i x else s.readSrc i y)))

/-- CMP writes p[D] on t + 1 with its condition: equality, or the signed or unsigned order, of the two sources. The
predicate operations write p[D] on t + 1 with AND, OR, XOR and NOT of their predicates, or with a copy of a predicate
or the test of a g register against zero. (R145, R146, R155, R157, R161) -/
def Obligations.ComparesAndPredicatesComplete : Prop :=
  ∀ (hd : Head) (d p q : BitVec 5) (g : BitVec 5) (x y : Src) (s : State),
    (s.Issues hd 0x25 .both →
      let i := Issue.of s hd 0x25
      let a := s.readSrc i x
      let b := s.readSrc i y
      let gives := fun (c : Cond) (v : Bool) => exec (.cmp hd d x y c) s = .next ((s.advance i).writePAfter i 1 d v)
      gives .eq (a = b) ∧ gives .ne (a ≠ b) ∧ gives .lt (a.toInt < b.toInt) ∧ gives .le (a.toInt ≤ b.toInt) ∧
      gives .gt (a.toInt > b.toInt) ∧ gives .ge (a.toInt ≥ b.toInt) ∧ gives .ltu (a.toNat < b.toNat) ∧
      gives .leu (a.toNat ≤ b.toNat) ∧ gives .gtu (a.toNat > b.toNat) ∧ gives .geu (a.toNat ≥ b.toNat)) ∧
    (s.Issues hd 0x29 .both →
      let i := Issue.of s hd 0x29
      let gives := fun (w : Instr) (v : Bool) => exec w s = .next ((s.advance i).writePAfter i 1 d v)
      gives (.pgand hd d p q) (s.readP i p && s.readP i q) ∧ gives (.pgor hd d p q) (s.readP i p || s.readP i q) ∧
      gives (.pgxor hd d p q) (xor (s.readP i p) (s.readP i q)) ∧ gives (.pgnot hd d p) (!s.readP i p) ∧
      gives (.pgmov hd d (.p p)) (s.readP i p) ∧ gives (.pgmov hd d (.g g)) (s.readG i g ≠ 0))

/-- FADD.S, FMUL.S, FMIN.S and FMAX.S write g[D] on t + 3 and FFMA.S on t + 4 with the exact result rounded once to
FP32, nearest even, zero-extended; FMIN.S and FMAX.S give a NaN when either operand is one, else the smaller or larger
with -0 below +0. FCMP.S writes p[D] on t + 3. CVT and FCLASS write g[D] on t + 3 with their result. (R85, R86, R92,
R95, R98, R99, R146, R155, R157, R158) -/
def Obligations.FloatWordsComplete : Prop :=
  ∀ (hd : Head) (d : BitVec 5) (x y z : FSrc) (c : FCond) (sat : Bool) (sf df fmt : BitVec 5) (m : BitVec 4) (s : State),
    (s.Issues hd 0x26 .both →
      let i := Issue.of s hd 0x26
      let a := s.readF32 i x
      let b := s.readF32 i y
      let e := s.readF32 i z
      let out := fun (v : Val) => BitVec.ofNat 64 (convertTo .f32 v .rne false)
      let gives := fun (w : Instr) (o : Nat) (v : Val) => exec w s = .next ((s.advance i).writeGAfter i o d (out v))
      gives (.fadds hd d x y) 3 (a.add false b) ∧ gives (.fmuls hd d x y) 3 (a.mul b) ∧
      gives (.ffmas hd d x y z) 4 ((a.mul b).add false e) ∧ gives (.fmins hd d x y) 3 (a.smaller b) ∧
      gives (.fmaxs hd d x y) 3 (a.larger b) ∧
      exec (.fcmps hd d x y c) s = .next ((s.advance i).writePAfter i 3 d (FCond.holds c a b))) ∧
    (s.Issues hd 0xD0 .both →
      let i := Issue.of s hd 0xD0
      let v := convertTo (fmtOf df) ((fmtOf sf).value (s.readFSrc i x).toNat) (Mode.ofCode m.toNat) sat
      exec (.cvt hd d x sat sf df m) s = .next ((s.advance i).writeGAfter i 3 d
        (if (fmtOf df).isSigned = true ∧ v ≥ 2 ^ ((fmtOf df).bits - 1) then BitVec.ofInt 64 ((v : Int) - 2 ^ (fmtOf df).bits)
          else BitVec.ofNat 64 v))) ∧
    (s.Issues hd 0xD7 .both →
      let i := Issue.of s hd 0xD7
      exec (.fclass hd d x fmt) s = .next ((s.advance i).writeGAfter i 3 d (BitVec.ofNat 64 (fclassMask (fmtOf fmt) (s.readFSrc i x).toNat))))

/-- LEA and AINC write a[D] on t + 1 with the sum modulo 2^32. A move copies all 64 bits on its offset of R146: MOVY
to y on t + 3, to cb on t + 2, and to g on t + 1; MOVK on t + 1. In the shadow context a write to y, cb or k, which
belongs to the frozen context, stands at once (log entry 26), where elsewhere it waits for its cycle. (R144, R146,
R149, R159, R160) -/
def Obligations.MovesComplete : Prop :=
  ∀ (hd : Head) (a b : BitVec 4) (imm : BitVec 56) (g : BitVec 5) (y : BitVec 4) (c : BitVec 2) (k : BitVec 3) (s : State),
    (s.Issues hd 0x27 .noShadow →
      let i := Issue.of s hd 0x27
      let gives := fun (w : Instr) (v : BitVec 32) => exec w s = .next ((s.advance i).after i 1 (.wa i.c a v))
      gives (.lea hd a (.g g) imm) ((s.readG i g).setWidth 32 + imm.setWidth 32) ∧
      gives (.lea hd a (.a b) imm) (s.readA i b + imm.setWidth 32) ∧
      gives (.ainc hd a imm) (s.readA i a + imm.setWidth 32)) ∧
    (s.Issues hd 0x28 .both →
      let i := Issue.of s hd 0x28
      let v := s.readG i g
      exec (.movy hd (.gFromY g y)) s = .next ((s.advance i).writeGAfter i 1 g (s.core.readY y)) ∧
      exec (.movy hd (.gFromCb g c)) s = .next ((s.advance i).writeGAfter i 1 g (s.core.readCb c)) ∧
      exec (.movk hd (.gFromK g k)) s = .next ((s.advance i).writeGAfter i 1 g (s.core.readK k)) ∧
      (s.core.shadow.active = false →
        exec (.movy hd (.yFromG y g)) s = .next ((s.advance i).after i 3 (.wy y v)) ∧
        exec (.movy hd (.cbFromG c g)) s = .next ((s.advance i).after i 2 (.wcb c v)) ∧
        exec (.movk hd (.kFromG k g)) s = .next ((s.advance i).after i 1 (.wk k v))) ∧
      (s.core.shadow.active = true →
        exec (.movy hd (.yFromG y g)) s = .next { s.advance i with core := (s.advance i).core.writeY y v } ∧
        exec (.movy hd (.cbFromG c g)) s = .next { s.advance i with core := (s.advance i).core.writeCb c v } ∧
        exec (.movk hd (.kFromG k g)) s = .next { s.advance i with core := (s.advance i).core.writeK k v }))

/-- MFS writes g[D] on t + 2 with the system register as it stands on the issue cycle; it may read TRAPREC only in the
shadow context. MTS writes TOL and FIJ anywhere, and CIR and MXRET in the shadow context, with g[S] on t + 2 (at once
in the shadow context, log entry 26). A register that the context may not read or write gives ILLEGAL WORD reason 6,
and the word has no effect. (R119, R146, R153, R162, R353) -/
def Obligations.SystemRegisterWordsComplete : Prop :=
  ∀ (hd : Head) (g : BitVec 5) (r : SysReg) (s : State),
    (s.Issues hd 0x13 .both →
      let i := Issue.of s hd 0x13
      ((r ≠ .traprec ∨ s.core.shadow.active = true) →
        exec (.mfs hd g r) s = .next ((s.advance i).writeGAfter i 2 g (s.readSys r))) ∧
      (r = .traprec → s.core.shadow.active = false → exec (.mfs hd g r) s = .next (s.raise (illegalHere i 0)))) ∧
    (s.Issues hd 0x14 .both →
      let i := Issue.of s hd 0x14
      let plain := (∃ n, r = .tol n) ∨ r = .fij
      let handlers := r = .cir ∨ r = .mxret
      (s.core.shadow.active = false → plain →
        exec (.mts hd r g) s = .next ((s.advance i).after i 2 (.wsys r (s.readG i g)))) ∧
      (s.core.shadow.active = true → plain ∨ handlers →
        exec (.mts hd r g) s = .next { s.advance i with core := (s.advance i).core.writeSys r (s.readG i g) }) ∧
      (s.core.shadow.active = false → ¬plain → exec (.mts hd r g) s = .next (s.raise (illegalHere i 0))) ∧
      (s.core.shadow.active = true → ¬plain → ¬handlers → exec (.mts hd r g) s = .next (s.raise (illegalHere i 0))))

/-- NOP only issues. IDLE sets IDLEREM to n + IDLE. TIME and TRUNK write g[D] on t + 1 with the core time and the
trunk counter of the issue cycle. WAITT to a time that the next word reaches anyway issues and is done; to a later one
it leaves its cluster waiting for that time, in a free section. HALT leaves S halted. QUIET and YIELD hold L, M and W,
and leave S waiting for the quiet point, in a free section. In a joined section a WAITT that is not met raises
SCHEDULE MISS cause 3; QUIET and YIELD find their quiet point with no write pending, and otherwise raise cause 4 with
the cycles until the last pending write performs, as which a copy-in without a settled completion counts as 0xFFFF by
the model's choice (log entry 81); HALT and IDLE are illegal words. (R108, R109, R111, R117, R129, R130, R131, R135,
R139, R140) -/
def Obligations.ClockAndIdleWordsComplete : Prop :=
  ∀ (hd : Head) (n : BitVec 16) (g : BitVec 5) (w : WaitTo) (s : State),
    (s.Issues hd 0x01 .both → exec (.nop hd) s = .next (s.advance (Issue.of s hd 0x01))) ∧
    (s.IssuesFree hd 0x02 →
      let i := Issue.of s hd 0x02
      let u := s.advance i
      exec (.idle hd n) s = .next (u.setCl i.c { u.core.cl i.c with idleRem := n.toNat + hd.idle.toNat })) ∧
    (s.Issues hd 0x0E .both →
      let i := Issue.of s hd 0x0E
      exec (.time hd g) s = .next ((s.advance i).writeGAfter i 1 g (BitVec.ofNat 64 (s.trunk - s.core.clag)))) ∧
    (s.Issues hd 0x0F .both →
      let i := Issue.of s hd 0x0F
      exec (.trunk hd g) s = .next ((s.advance i).writeGAfter i 1 g (BitVec.ofNat 64 s.trunk))) ∧
    (s.IssuesFree hd 0x0A →
      let i := Issue.of s hd 0x0A
      let u := s.advance i
      let x := match w with | .abs r => (s.readG i r).toNat | .rel m => s.ctime + m.toNat
      exec (.waitt hd w) s = .next (if x ≤ s.ctime + 1 + hd.idle.toNat then u
        else u.setCl i.c { u.core.cl i.c with mode := .instrWait, wait := some (.untilTime x) })) ∧
    (s.Issues hd 0x0A .noShadow → (Issue.of s hd 0x0A).joined = true →
      let i := Issue.of s hd 0x0A
      let x := match w with | .abs r => (s.readG i r).toNat | .rel m => s.ctime + m.toNat
      exec (.waitt hd w) s = .next (if x ≤ s.ctime + 1 + hd.idle.toNat then s.advance i
        else s.raise (i.info 0x12 9 (statusOpc 3 0x0A 0) 0 0 false))) ∧
    (let joinedQuiet := fun (ins : Instr) (opc : Nat) (yields : Bool) =>
        let i := Issue.of s hd opc
        let u := s.advance i
        s.Issues hd opc .noShadow → i.joined = true →
        exec ins s = .next (if s.core.writePending s.ctime
          then s.raise (i.info 0x12 9 (statusOpc 4 opc (min (s.pendingCycles s.ctime) 0xFFFF)) 0 0 false)
          else u.setCl i.c { u.core.cl i.c with mode := .instrWait, wait := some (.quiet yields) });
      joinedQuiet (.quiet hd) 0x0C false ∧ joinedQuiet (.yield hd) 0x0D true) ∧
    (∀ e ∈ s.core.timeline, e.act.silent = false → s.core.writePending s.ctime = true → s.core.copyQ = [] →
      e.due + e.act.tail ≤ s.ctime + s.pendingCycles s.ctime) ∧
    ((Issue.of s hd 0x0B).joined = true →
      exec (.halt hd) s = .next (s.raise (illegalHere (Issue.of s hd 0x0B) 0)) ∧
      exec (.idle hd n) s = .next (s.raise (illegalHere (Issue.of s hd 0x02) 0))) ∧
    (s.IssuesFree hd 0x0B →
      let i := Issue.of s hd 0x0B
      let u := s.advance i
      exec (.halt hd) s = .next (u.setCl i.c { u.core.cl i.c with mode := .halted })) ∧
    (s.IssuesFree hd 0x0C →
      let i := Issue.of s hd 0x0C
      let u := s.advance i
      let held : State := { u with core := { u.core with holdOthers := true } }
      exec (.quiet hd) s = .next (held.setCl i.c { held.core.cl i.c with mode := .instrWait, wait := some (.quiet false) })) ∧
    (s.IssuesFree hd 0x0D →
      let i := Issue.of s hd 0x0D
      let u := s.advance i
      let held : State := { u with core := { u.core with holdOthers := true } }
      exec (.yield hd) s = .next (held.setCl i.c { held.core.cl i.c with mode := .instrWait, wait := some (.quiet true) }))

/-- In a free section, the target section is the first in plane order of the own kind with the number: a word of it is
the next word and retires nothing where it is the section that runs; another one, entered at a word below its length
(word 0 if it is joined), retires the own section and is entered. CALL also writes its link, section and word index +
1, on t + 1. BRX and RET take the packed target from g[REG]. JSEC to a section by number or register enters it at word
0. A target with no section, a word not below LEN, a joined section at another word, and non-zero upper bits of a
packed target give BRANCH TARGET with status 1, 2, 3 and 4, and the word has no other effect. In a joined section BR
to a word of the own section moves the whole quartet there, BR to another section is an illegal word, and so are BRX,
CALL, RET and JSEC without a steer. In the shadow context BR, BRX, CALL, RET and JSEC do the same among S sections
with the context's own section and word, and nothing retires. Status 2, not 3, for a joined section at a word other
than 0 that is not below its length is the model's choice (log entry 72). (R82, R112, R114, R115, R117, R133, R136,
R137, R353) -/
def Obligations.TransfersComplete : Prop :=
  ∀ (hd : Head) (g : BitVec 5) (w : BitVec 12) (n : BitVec 10) (s : State),
    let own := fun (i : Issue) (u : State) (x : BitVec 12) =>
      let k := u.core.cl i.c
      u.setCl i.c { k with word := x, lret := k.lretWas, any := k.anyWas, runStart := true }
    let into := fun (i : Issue) (u : State) (off : Nat) (h : Header) (x : BitVec 12) =>
      u.setCl i.c ({ u.core.cl i.c with lret := i.at_.sec, any := true }.enter off h x)
    let goes := fun (ins : Instr) (i : Issue) (u : State) (sec : BitVec 10) (x : BitVec 12) =>
      (findSection s.activePlane i.c sec = none → exec ins s = .next (s.raise (i.info 0x05 9 1 0 0 false))) ∧
      (∀ off h, findSection s.activePlane i.c sec = some (off, h) →
        (h.len ≤ x.toNat → exec ins s = .next (s.raise (i.info 0x05 9 2 0 0 false))) ∧
        (x.toNat < h.len → off = i.hdr → exec ins s = .next (own i u x)) ∧
        (x.toNat < h.len → off ≠ i.hdr → h.sync = true → x ≠ 0 → exec ins s = .next (s.raise (i.info 0x05 9 3 0 0 false))) ∧
        (x.toNat < h.len → off ≠ i.hdr → (h.sync = false ∨ x = 0) → exec ins s = .next (into i u off h x)))
    (s.IssuesFree hd 0x03 → let i := Issue.of s hd 0x03; goes (.br hd w n) i (s.advance i) n w) ∧
    (s.IssuesFree hd 0x05 →
      let i := Issue.of s hd 0x05
      let link : Word := (i.at_.sec ++ (i.at_.word + 1)).setWidth 64
      goes (.call hd g w n) i ((s.advance i).after i 1 (.wg i.c g link)) n w) ∧
    (s.IssuesFree hd 0x04 →
      let i := Issue.of s hd 0x04
      let v := s.readG i g
      (v.toNat < 2 ^ 22 → goes (.brx hd g) i (s.advance i) (v.extractLsb' 12 10) (v.extractLsb' 0 12)) ∧
      (2 ^ 22 ≤ v.toNat → exec (.brx hd g) s = .next (s.raise (i.info 0x05 9 4 0 0 false)))) ∧
    (s.IssuesFree hd 0x06 →
      let i := Issue.of s hd 0x06
      let v := s.readG i g
      (v.toNat < 2 ^ 22 → goes (.ret hd g) i (s.advance i) (v.extractLsb' 12 10) (v.extractLsb' 0 12)) ∧
      (2 ^ 22 ≤ v.toNat → exec (.ret hd g) s = .next (s.raise (i.info 0x05 9 4 0 0 false)))) ∧
    (s.IssuesFree hd 0x07 →
      let i := Issue.of s hd 0x07
      let u := s.advance i
      (∀ off h, findSection s.activePlane i.c n = some (off, h) → h.len ≠ 0 →
        exec (.jsec hd (.num n)) s = .next (into i u off h 0) ∧
        (s.readG i g = n.setWidth 64 → n ≠ 0x3FF → exec (.jsec hd (.reg g)) s = .next (into i u off h 0))) ∧
      (findSection s.activePlane i.c n = none → exec (.jsec hd (.num n)) s = .next (s.raise (i.info 0x05 9 1 0 0 false))) ∧
      (1023 ≤ (s.readG i g).toNat → exec (.jsec hd (.reg g)) s = .next (s.raise (i.info 0x05 9 1 0 0 false)))) ∧
    (s.Issues hd 0x03 .both → (Issue.of s hd 0x03).joined = true →
      let i := Issue.of s hd 0x03
      let q := own i (s.advance i) w
      (n = i.at_.sec → w.toNat < (s.header i.c).len → exec (.br hd w n) s = .next { q with core := { q.core with qjump := some w } }) ∧
      (n = i.at_.sec → (s.header i.c).len ≤ w.toNat → exec (.br hd w n) s = .next (s.raise (i.info 0x05 9 2 0 0 false))) ∧
      (n ≠ i.at_.sec → exec (.br hd w n) s = .next (s.raise (illegalHere i 0)))) ∧
    (let illegal := fun (ins : Instr) (opc : Nat) => (Issue.of s hd opc).joined = true →
        exec ins s = .next (s.raise (illegalHere (Issue.of s hd opc) 0));
      illegal (.brx hd g) 0x04 ∧ illegal (.call hd g w n) 0x05 ∧ illegal (.ret hd g) 0x06 ∧ illegal (.jsec hd (.num n)) 0x07 ∧
      illegal (.jsec hd (.reg g)) 0x07) ∧
    (s.core.shadow.active = true →
      let sh := s.core.shadow
      let stays := fun (u : State) (x : BitVec 12) =>
        { u with core := { u.core with shadow := { u.core.shadow with word := x } } }
      let enters := fun (u : State) (off : Nat) (h : Header) (x : BitVec 12) =>
        { u with core := { u.core with shadow :=
          { u.core.shadow with sec := h.secno, hdr := off, word := x, unchecked := true } } }
      let goes := fun (ins : Instr) (i : Issue) (u : State) (sec : BitVec 10) (x : BitVec 12) =>
        (findSection s.activePlane .S sec = none → exec ins s = .next (s.raise (i.info 0x05 9 1 0 0 false))) ∧
        (∀ off h, findSection s.activePlane .S sec = some (off, h) →
          (h.len ≤ x.toNat → exec ins s = .next (s.raise (i.info 0x05 9 2 0 0 false))) ∧
          (x.toNat < h.len → off = sh.hdr → exec ins s = .next (stays u x)) ∧
          (x.toNat < h.len → off ≠ sh.hdr → h.sync = true → x ≠ 0 →
            exec ins s = .next (s.raise (i.info 0x05 9 3 0 0 false))) ∧
          (x.toNat < h.len → off ≠ sh.hdr → (h.sync = false ∨ x = 0) → exec ins s = .next (enters u off h x)))
      (s.Issues hd 0x03 .both → let i := Issue.of s hd 0x03; goes (.br hd w n) i (s.advance i) n w) ∧
      (s.Issues hd 0x05 .freeOrShadow →
        let i := Issue.of s hd 0x05
        let link : Word := (sh.sec ++ (sh.word + 1)).setWidth 64
        goes (.call hd g w n) i ((s.advance i).writeGAfter i 1 g link) n w) ∧
      (let packed := fun (ins : Instr) (opc : Nat) => s.Issues hd opc .freeOrShadow →
          let i := Issue.of s hd opc
          let v := s.core.shadow.readG g
          (v.toNat < 2 ^ 22 → goes ins i (s.advance i) (v.extractLsb' 12 10) (v.extractLsb' 0 12)) ∧
          (2 ^ 22 ≤ v.toNat → exec ins s = .next (s.raise (i.info 0x05 9 4 0 0 false)));
        packed (.brx hd g) 0x04 ∧ packed (.ret hd g) 0x06) ∧
      (s.Issues hd 0x07 .freeOrShadow →
        let i := Issue.of s hd 0x07
        (∀ off h, findSection s.activePlane .S n = some (off, h) → h.len ≠ 0 →
          exec (.jsec hd (.num n)) s = .next (enters (s.advance i) off h 0) ∧
          (s.core.shadow.readG g = n.setWidth 64 → n ≠ 0x3FF →
            exec (.jsec hd (.reg g)) s = .next (enters (s.advance i) off h 0))) ∧
        (findSection s.activePlane .S n = none →
          exec (.jsec hd (.num n)) s = .next (s.raise (i.info 0x05 9 1 0 0 false)))))

/-- In a free section whose number the word names: LOOP decrements g[REG] on t + 1, is taken unless the result is zero
(g0: always), and then goes to its word of the own section; LOOPX adds its step to k[REG] on t + 1 and is taken while
the sum is below g[E], unsigned. A steer of L, M or W to a section or to park is written to a cluster with no pending
steer; while one is pending S waits, in a free section, and in a joined one the word raises SCHEDULE MISS cause 5 with
the cluster. In a joined section a taken loop moves the whole quartet. In the shadow context a taken loop moves its
own word; there LOOPX, whose register belongs to the frozen context, writes it at once (log entry 26). A section that
is not the own one makes LOOP and LOOPX illegal words. (R111, R117, R118, R137, R138, R353) -/
def Obligations.LoopsAndSteersComplete : Prop :=
  ∀ (hd : Head) (g e : BitVec 5) (k : BitVec 3) (step : BitVec 16) (w : BitVec 12) (n : BitVec 10) (c : Steered) (s : State),
    let own := fun (i : Issue) (u : State) =>
      let q := u.core.cl i.c
      u.setCl i.c { q with word := w, lret := q.lretWas, any := q.anyWas, runStart := true }
    (s.IssuesFree hd 0x08 → n = (Issue.of s hd 0x08).at_.sec → w.toNat < (s.header (Issue.of s hd 0x08).c).len →
      let i := Issue.of s hd 0x08
      let v := s.readG i g - 1
      let u := (s.advance i).after i 1 (.wg i.c g v)
      exec (.loop hd g w n) s = .next (if v = 0 then u else own i u)) ∧
    (s.IssuesFree hd 0x09 → n = (Issue.of s hd 0x09).at_.sec → w.toNat < (s.header (Issue.of s hd 0x09).c).len →
      let i := Issue.of s hd 0x09
      let v := s.core.readK k + step.setWidth 64
      let u := (s.advance i).after i 1 (.wk k v)
      exec (.loopx hd k e step w n) s = .next (if v.toNat < (s.readG i e).toNat then own i u else u)) ∧
    (let quartet := fun (i : Issue) (u : State) => let q := own i u; { q with core := { q.core with qjump := some w } };
      let joins := fun (opc : Nat) => s.Issues hd opc .both ∧ (Issue.of s hd opc).joined = true ∧ n = (Issue.of s hd opc).at_.sec ∧
        w.toNat < (s.header (Issue.of s hd opc).c).len;
      (joins 0x08 →
        let i := Issue.of s hd 0x08
        let v := s.readG i g - 1
        let u := (s.advance i).after i 1 (.wg i.c g v)
        exec (.loop hd g w n) s = .next (if v = 0 then u else quartet i u)) ∧
      (joins 0x09 →
        let i := Issue.of s hd 0x09
        let v := s.core.readK k + step.setWidth 64
        let u := (s.advance i).after i 1 (.wk k v)
        exec (.loopx hd k e step w n) s = .next (if v.toNat < (s.readG i e).toNat then quartet i u else u))) ∧
    (n ≠ (Issue.of s hd 0x08).at_.sec →
      exec (.loop hd g w n) s = .next (s.raise (illegalHere (Issue.of s hd 0x08) 0)) ∧
      exec (.loopx hd k e step w n) s = .next (s.raise (illegalHere (Issue.of s hd 0x09) 0))) ∧
    (s.core.shadow.active = true → n = s.core.shadow.sec → w.toNat < (headerAt s.activePlane s.core.shadow.hdr).len →
      let goes := fun (u : State) => { u with core := { u.core with shadow := { u.core.shadow with word := w } } }
      (s.Issues hd 0x08 .both →
        let i := Issue.of s hd 0x08
        let v := s.core.shadow.readG g - 1
        let u := (s.advance i).writeGAfter i 1 g v
        exec (.loop hd g w n) s = .next (if v = 0 then u else goes u)) ∧
      (s.Issues hd 0x09 .both →
        let v := s.core.readK k + step.setWidth 64
        let u := s.advance (Issue.of s hd 0x09)
        let u := { u with core := u.core.writeK k v }
        exec (.loopx hd k e step w n) s = .next (if v.toNat < (s.core.shadow.readG e).toNat then goes u else u))) ∧
    (s.Issues hd 0x07 .noShadow → (Issue.of s hd 0x07).joined = true →
      let i := Issue.of s hd 0x07
      let u := s.advance i
      let t := steered c
      let steers := fun (ins : Instr) (dst : SteerTo) =>
        exec ins s = .next
          (if (u.core.cl t).steer = none then u.setCl t { u.core.cl t with steer := some dst, steerAt := s.ctime }
          else s.raise (i.info 0x12 9 (5#8 ++ 0x07#8 ++ BitVec.ofNat 16 t.idx) 0 0 false))
      steers (.jsecSteer hd c (.num n)) (.sec n) ∧ steers (.jsecPark hd c) .park) ∧
    (s.IssuesFree hd 0x07 → (Issue.of s hd 0x07).c = .S →
      let i := Issue.of s hd 0x07
      let u := s.advance i
      let t := steered c
      let steers := fun (ins : Instr) (dst : SteerTo) =>
        exec ins s = .next
          (if (s.core.cl t).steer = none then u.setCl t { u.core.cl t with steer := some dst, steerAt := s.ctime }
          else u.setCl .S { u.core.cl .S with mode := .instrWait, wait := some (.steer t dst) })
      steers (.jsecSteer hd c (.num n)) (.sec n) ∧ steers (.jsecPark hd c) .park ∧
      (s.readG i g = n.setWidth 64 → n ≠ 0x3FF → steers (.jsecSteer hd c (.reg g)) (.sec n)) ∧
      (1023 ≤ (s.readG i g).toNat → exec (.jsecSteer hd c (.reg g)) s = .next (s.raise (i.info 0x05 9 1 0 0 false))))

/-- With the core not frozen, no handler running and room in the fault buffer, TRAP n and BKPT (with no debugger
attached) complete and take software trap 0x80 + n, or BREAKPOINT with its tag as the status: the record enters the
fault buffer with NEXT set, at the word's place; the core freezes on its core cycle, and the handler is to start, or,
where the plane has no handler section, the context has stopped. TRAP in the shadow context ends the context: the
record of the handled fault gains FINAL, a second record with code 0x80 + n and DBL follows, and the core stays
frozen. (R121, R141, R347, R349, R351, R352, R353) -/
def Obligations.TrapsComplete : Prop :=
  ∀ (hd : Head) (n : BitVec 5) (tag : BitVec 8) (s : State),
    let takes := fun (ins : Instr) (i : Issue) (f : FaultInfo) =>
      ∃ t, exec ins s = .next t ∧ t.core.handling = some f ∧
        t.core.freeze = [if (findSection s.activePlane .S 1022).isSome then .entering else .stopped] ∧
        (∃ r, t.faultBuf = s.faultBuf ++ [r] ∧ r.w0 = f.word0 ∧ r.w4 = BitVec.ofNat 64 s.trunk ∧
          r.w5 = BitVec.ofNat 64 s.ctime) ∧ t.recSeq = s.recSeq + 1 ∧ t.core.traprec = s.core.traprec ∧
        f.at_ = ⟨i.c, (s.core.cl i.c).sec, (s.core.cl i.c).word⟩ ∧ f.next = true ∧ f.kind = .precise ∧
        (t.core.cl i.c).word = ((s.advance i).core.cl i.c).word
    (s.core.shadow.active = true → s.Issues hd 0x10 .both → s.faultBuf.length < 512 → ∀ (x : FRec) (a b : List FRec),
      s.core.handled = some x → s.faultBuf = a ++ x :: b → x ∉ a → x ∉ b →
      ∃ t r, exec (.trap hd n) s = .next t ∧
        t.faultBuf = a ++ { x with w1 := x.w1 ||| BitVec.twoPow 64 53 } :: b ++ [r] ∧ t.recSeq = s.recSeq + 1 ∧
        r.w0.extractLsb' 56 8 = BitVec.ofNat 8 (0x80 + n.toNat) ∧ r.w0.extractLsb' 38 10 = s.core.shadow.sec ∧
        r.w0.extractLsb' 26 12 = s.core.shadow.word ∧ r.w1.getLsbD 52 = true ∧ r.w7 = s.recSeq.setWidth 64 ∧
        t.core.freeze = .stopped :: s.core.freeze ∧ t.core.handling = s.core.handling ∧ s.SameContents t) ∧
    (s.core.freeze = [] → s.core.shadow.active = false → s.faultBuf.length < 512 →
    (s.Issues hd 0x10 .both →
      ∃ f : FaultInfo, takes (.trap hd n) (Issue.of s hd 0x10) f ∧ f.code = 0x80 + n.toNat ∧ f.status = 0) ∧
    (s.Issues hd 0x12 .noShadow → s.debugger ≠ some s.core.tenant →
      ∃ f : FaultInfo, takes (.bkpt hd tag) (Issue.of s hd 0x12) f ∧ f.code = 0xA0 ∧ f.status = tag.setWidth 32))

/-- The address is exact: a[A] plus the signed offset, or plus the signed index, scaled if so asked. Where the access
passes bounds, regions, tags and the calendar, lies on no locked line, and a store's old contents fit the rollback
area, a load puts one read of the element on t + 1 on the timeline and a store one write of the low bytes of g[S] as
they stand on the issue cycle; the access enters the calendar; nothing else is put on the timeline. LDS and STS at a
byte address below 0, or whose last byte passes 4 MiB, raise LOCAL BOUNDS with reason 1; an address in range that is
no multiple of the element size raises it with reason 2; that this comes also where a locked line would hold the word
is the model's choice (log entry 57). An LDS that passes bounds, regions and the calendar and reads a locked line is
held in a free section, whatever tag its region holds so far, and raises SCHEDULE MISS cause 3 in a joined one; that
the first three are checked before the lock is the model's choice (log entry 57). The status has the reason in
[31:30], requester kind 0 in [29:27] and the address in [23:0]; the failing engine is the requester kind; the word has
no other effect. (R145, R172, R174, R176, R179, R184, R185) -/
def Obligations.ScalarAccessesComplete : Prop :=
  (∀ (hd : Head) (g gi : BitVec 5) (a : BitVec 4) (sz : BitVec 2) (sx sc : Bool) (off : BitVec 32) (s : State),
      let n := 2 ^ sz.toNat
      let plan := fun (wr : Bool) (x : Int) => [(⟨s.ctime + 1, 0, wr, x, n, n, false⟩ : Planned)]
      let gives := fun (ins : Instr) (i : Issue) (wr : Bool) (x : Int) (act : Act) =>
        s.Passes i 3 (plan wr x) →
        ∃ t q, exec ins s = .next t ∧ t.core.timeline = ⟨s.ctime + 1, q, act⟩ :: s.core.timeline ∧
          t.core.calendar = s.core.calendar ++ [⟨s.ctime + 1, 0, wr, x.toNat / 16, 1, false, i.at_⟩]
      (s.Issues hd 0x2A .noShadow →
        let i := Issue.of s hd 0x2A
        let x : Int := (s.readA i a).toNat + off.toInt
        gives (.lds hd g a sz sx off) i false x (.load g x.toNat sz.toNat sx) ∧
        gives (.sts hd g a sz off) i true x (.wr .ls [(x.toNat, n)] (toBytes n (s.readG i g).toNat))) ∧
      (s.Issues hd 0x2B .noShadow →
        let i := Issue.of s hd 0x2B
        let x : Int := (s.readA i a).toNat + (s.readG i gi).toInt * (if sc then (n : Int) else 1)
        gives (.ldsx hd g a gi sz sx sc) i false x (.load g x.toNat sz.toNat sx) ∧
        gives (.stsx hd g a gi sz sc) i true x (.wr .ls [(x.toNat, n)] (toBytes n (s.readG i g).toNat)))) ∧
  (∀ (hd : Head) (g : BitVec 5) (a : BitVec 4) (sz : BitVec 2) (sx : Bool) (off : BitVec 32) (s : State),
      s.Issues hd 0x2A .noShadow →
      let i := Issue.of s hd 0x2A
      let x : Int := (s.readA i a).toNat + off.toInt
      let n : Int := 2 ^ sz.toNat
      let raises := fun (reason : BitVec 2) (at_ : Int) =>
        let f := i.info 0x14 0 (reason ++ 0#6 ++ BitVec.ofInt 24 at_) 0 0 false
        exec (.lds hd g a sz sx off) s = .next (s.raise f) ∧ exec (.sts hd g a sz off) s = .next (s.raise f)
      (x < 0 → raises 1 x) ∧ (0 ≤ x → 4194304 < x + n → raises 1 (max x 4194304)) ∧
      (0 ≤ x → x + n ≤ 4194304 → x % n ≠ 0 → raises 2 x) ∧
      (0 ≤ x → x + n ≤ 4194304 → x % n = 0 → s.core.refusal 3 false x.toNat (2 ^ sz.toNat) = none →
        firstClash s.core.calendar i.at_ [] [⟨s.ctime + 1, 0, false, x, 2 ^ sz.toNat, 2 ^ sz.toNat, false⟩] = none →
        s.core.rangeLocked x.toNat (2 ^ sz.toNat) = true →
        (i.joined = false → exec (.lds hd g a sz sx off) s = .next (s.hold i)) ∧
        (i.joined = true → exec (.lds hd g a sz sx off) s = .next (s.raise (i.info 0x12 9 (3#8 ++ 0x2A#8 ++ 0#16) 0 0 false)))))

/-- On its read cycle c a load of the scalar unit reads its bytes, lowest address lowest, and writes g[D] of S on c +
2: the element zero-extended, or sign-extended where SX is set. Bytes of a poisoned line read as zero and set CIR.PSC.
It changes no byte of memory and no other register. A write of bytes to a memory in canonical form (which every step
keeps, see MemoryFormKept) stores each byte at its address, in order; every other byte of that memory, and every byte
of the other memories, reads as before; no register changes. A unit that the write covers wholly is poisoned no more,
and no unit becomes poisoned. A write of several pieces is the writes of its pieces, in order, each with the bytes
that follow those of the piece before. A move of an engine (of accumulator, scale, codebook or register bytes) reads
its source's pieces in order on its cycle, bytes of poisoned units as zero and with the engine's CIR bit set then, and
puts the write of these bytes, padded with zeros to the length of the destination's pieces, on the next cycle; it
changes no byte and no register. (R4, R145, R184, R285, R294, R367) -/
def Obligations.LoadAndWriteActs : Prop :=
  (∀ (c : Core) (cyc q : Nat) (g : BitVec 5) (a : Nat) (sz : Nat) (sx : Bool), sz ≤ 3 →
      let n := 2 ^ sz
      let bad := (List.range n).any fun j => c.poison.contains (.lsLine ((a + j) / 64))
      let byte := fun j => if c.poison.contains (.lsLine ((a + j) / 64)) then 0 else (c.ls.get (a + j)).toNat
      let v := ((List.range n).map fun j => byte j * 256 ^ j).sum
      let d := c.performAct cyc ⟨cyc, q, .load g a sz sx⟩
      d.timeline = ⟨cyc + 2, q, .wg .S g
          (if sx = true ∧ 2 ^ (8 * n - 1) ≤ v then BitVec.ofInt 64 ((v : Int) - 2 ^ (8 * n)) else BitVec.ofNat 64 v)⟩ :: c.timeline ∧
      c.SameRegisters d ∧ (∀ m x, (d.mem m).get x = (c.mem m).get x) ∧
      d.cir = (if bad then c.cir ||| BitVec.twoPow 64 3 else c.cir)) ∧
  ((∀ (c : Core) (cyc q : Nat) (src dst : Mem) (sp dp : List (Nat × Nat)) (bit : Nat),
      let poisoned := fun (x : Nat) => c.poison.contains (src.unitAt x)
      let read := sp.flatMap fun p => (List.range p.2).map fun j => p.1 + j
      let bytes := read.map fun x => if poisoned x then 0 else (c.mem src).get x
      let d := c.performAct cyc ⟨cyc, q, .move src sp dst dp bit⟩
      d.timeline = ⟨cyc + 1, q, .wr dst dp (bytes ++ List.replicate ((dp.map (·.2)).sum - bytes.length) 0)⟩ :: c.timeline ∧
      c.SameRegisters d ∧ (∀ m, d.mem m = c.mem m) ∧ d.poison = c.poison ∧
      d.cir = (if read.any poisoned then c.cir ||| BitVec.twoPow 64 bit else c.cir)) ∧
    (∀ (c : Core) (cyc q : Nat) (m : Mem) (a n : Nat) (ps : List (Nat × Nat)) (bs : List Byte),
      let doing := fun (c : Core) (ps : List (Nat × Nat)) (bs : List Byte) => c.performAct cyc ⟨cyc, q, .wr m ps bs⟩
      doing c [] bs = c ∧ doing c ((a, n) :: ps) bs = doing (doing c [(a, n)] (bs.take n)) ps (bs.drop n)) ∧
    ∀ (c : Core) (cyc q : Nat) (m : Mem) (a : Nat) (bs : List Byte),
      let d := c.performAct cyc ⟨cyc, q, .wr m [(a, bs.length)] bs⟩
      ((c.mem m).wf = true → ∀ j (h : j < bs.length), (d.mem m).get (a + j) = bs[j]) ∧
      (∀ x, x < a ∨ a + bs.length ≤ x → (d.mem m).get x = (c.mem m).get x) ∧
      (∀ n x, n ≠ m → (d.mem n).get x = (c.mem n).get x) ∧
      c.SameRegisters d ∧ c.SameSystem d ∧ d.timeline = c.timeline ∧
      (∀ u ∈ d.poison, u ∈ c.poison) ∧
      (∀ x, a ≤ x / m.unitBytes * m.unitBytes → x / m.unitBytes * m.unitBytes + m.unitBytes ≤ a + bs.length →
        m.unitAt x ∉ d.poison))

/-- On its cycle a write of g[n] makes g[n] of its cluster read as the value, except that g0 reads as zero and p0 as
true whatever is written; a write of a, p, y, k and h and of a token likewise; a write of cb keeps only the fields of
R149. Every other register reads as before, and no memory changes. A handle written while its translation is being
installed will not be written by that installation (R147). A write of a system register takes TOLn whole, FIJ under
the mask of its RW bits [63:38], clears of CIR's W1C bits those written as 1, and clears MXRET.VALID where bit 63 of
the value is 0; it does nothing to the others (R153, R162, R323, R365), and CHKERR clears the CIR bits that it names.
So do the writes of the units' own tables: a format-table entry, the owners of a bank, a region's declaration, and a
codebook bank's count, width and source, with which LOADING ends, or its source alone, change that entry and no other.
ACALLOC and ACFREE allocate or free exactly their banks, and with zero every byte of them becomes 0 and no other byte
changes. (R143) -/
def Obligations.RegisterActs : Prop :=
  ∀ (c : Core) (cyc q : Nat) (k : Cluster) (n : BitVec 5) (a : BitVec 4) (x : BitVec 3) (b : BitVec 2) (v : Word)
    (v32 : BitVec 32) (p : Bool),
    let doing := fun (act : Act) => c.performAct cyc ⟨cyc, q, act⟩
    let only := fun (d : Core) => (∀ l, l ≠ k → d.cl l = c.cl l) ∧ (∀ m, d.mem m = c.mem m) ∧ c.SameSystem d ∧ c.h = d.h ∧ c.q = d.q
    (let d := doing (.wg k n v)
     (∀ r, (d.cl k).readG r = if r = 0 then 0 else if r = n then v else (c.cl k).readG r) ∧ only d ∧
       (d.cl k).a = (c.cl k).a ∧ (d.cl k).p = (c.cl k).p ∧ d.y = c.y ∧ d.k = c.k ∧ d.cb = c.cb) ∧
    (let d := doing (.wa k a v32)
     (∀ r, (d.cl k).readA r = if r = a then v32 else (c.cl k).readA r) ∧ only d ∧
       (d.cl k).g = (c.cl k).g ∧ (d.cl k).p = (c.cl k).p ∧ d.y = c.y ∧ d.k = c.k ∧ d.cb = c.cb) ∧
    (let d := doing (.wp k n p)
     (∀ r, (d.cl k).readP r = if r = 0 then true else if r = n then p else (c.cl k).readP r) ∧ only d ∧
       (d.cl k).g = (c.cl k).g ∧ (d.cl k).a = (c.cl k).a ∧ d.y = c.y ∧ d.k = c.k ∧ d.cb = c.cb) ∧
    (let d := doing (.wy a v)
     (∀ r, d.readY r = if r = a then v else c.readY r) ∧ only d ∧ d.cl k = c.cl k ∧ d.k = c.k ∧ d.cb = c.cb) ∧
    (let d := doing (.wk x v)
     (∀ r, d.readK r = if r = x then v else c.readK r) ∧ only d ∧ d.cl k = c.cl k ∧ d.y = c.y ∧ d.cb = c.cb) ∧
    (let d := doing (.wcb b v)
     (∀ r, d.readCb r = if r = b then v &&& 0xFFE303 else c.readCb r) ∧ only d ∧ d.cl k = c.cl k ∧ d.y = c.y ∧ d.k = c.k) ∧
    (∀ (tn : BitVec 4) (tok : Token) (h : Handle) (r : SysReg) (i : Fin 8) (j : Fin 16) (bank : Nat)
        (owners : BitVec 8) (region : Option Region) (count eb : Nat) (src : CbSource) (first : Nat) (on zero : Bool),
      let still := fun (d : Core) => (∀ l, d.cl l = c.cl l) ∧ d.y = c.y ∧ d.k = c.k ∧ d.cb = c.cb ∧ ∀ m, d.mem m = c.mem m
      let files := fun (d : Core) => d.h = c.h ∧ d.q = c.q
      let tables := fun (d : Core) => d.regions = c.regions ∧ c.SameBanks d
      (let d := doing (.wh n h)
       (∀ r, d.readH r = if r = n then h else c.readH r) ∧ still d ∧ d.q = c.q ∧ c.SameSystem d ∧ tables d ∧
         ∀ va, .install n va ∉ d.freeze) ∧
      (let d := doing (.wtok tn tok)
       (∀ r, d.readQ r = if r = tn then tok else c.readQ r) ∧ still d ∧ d.h = c.h ∧ c.SameSystem d ∧ tables d) ∧
      (let d := doing (.wsys r v)
       d.tol[i] = (if r = .tol (BitVec.ofNat 3 i.val) then v else c.tol[i]) ∧
         d.fij = (if r = .fij then v &&& 0xFFFFFFC000000000 else c.fij) ∧
         d.cir = (if r = .cir then c.cir &&& ~~~(v &&& 0x0000FFFF0000E1FE) else c.cir) ∧
         d.mxret = (if r = .mxret ∧ v.getLsbD 63 = false then c.mxret &&& 0x7FFFFFFFFFFFFFFF else c.mxret) ∧
         d.ftab = c.ftab ∧ d.kend = c.kend ∧ d.traprec = c.traprec ∧ d.clag = c.clag ∧ d.ctx = c.ctx ∧
         still d ∧ files d ∧ tables d) ∧
      (let d := doing (.chkclr v)
       d.cir = c.cir &&& ~~~v ∧ still d ∧ files d ∧ tables d ∧ d.tol = c.tol ∧ d.fij = c.fij ∧ d.mxret = c.mxret ∧ d.ftab = c.ftab) ∧
      (let d := doing (.ftab tn v)
       d.ftab[j] = (if j.val = tn.toNat then v else c.ftab[j]) ∧ still d ∧ files d ∧ tables d ∧
         d.cir = c.cir ∧ d.tol = c.tol ∧ d.fij = c.fij ∧ d.mxret = c.mxret) ∧
      (let d := doing (.owners bank owners)
       (∀ x, x < 62 → d.bankOwner x = if x = bank then owners else c.bankOwner x) ∧ still d ∧ files d ∧ c.SameSystem d ∧
         d.allocated = c.allocated ∧ d.regions = c.regions ∧ d.banks = c.banks) ∧
      (let d := doing (.region tn region)
       d.regions[j] = (if j.val = tn.toNat then region else c.regions[j]) ∧ still d ∧ files d ∧ c.SameSystem d ∧ c.SameBanks d) ∧
      (let d := doing (.cbend bank count eb src)
       (∀ x : BitVec 2, d.bank x = if x.toNat = bank then ⟨count, eb, false, src⟩ else c.bank x) ∧
         still d ∧ files d ∧ c.SameSystem d ∧ d.regions = c.regions ∧ d.allocated = c.allocated ∧ d.owner = c.owner) ∧
      (let d := doing (.cbsrc bank src)
       (∀ x : BitVec 2, d.bank x = if x.toNat = bank then { c.bank x with source := src } else c.bank x) ∧
         still d ∧ files d ∧ c.SameSystem d ∧ d.regions = c.regions ∧ d.allocated = c.allocated ∧ d.owner = c.owner) ∧
      (let d := doing (.alloc first count on zero)
       (∀ x, x < 62 → d.bankAllocated x = if first ≤ x ∧ x < first + count then on else c.bankAllocated x) ∧
         c.SameRegisters d ∧ d.owner = c.owner ∧ d.banks = c.banks ∧ d.regions = c.regions ∧
         (∀ m, m ≠ .acc → d.mem m = c.mem m) ∧ ((on && zero) = false → d.acc = c.acc) ∧
         ((on && zero) = true → c.acc.wf = true → ∀ x, d.acc.get x =
           if 16384 * first ≤ x ∧ x < 16384 * (first + count) then 0 else c.acc.get x)))

/-- PHDECL, with no access pending in the old and the new range, no lock there, and no forbidden overlap with another
region, declares its region from t + 1 on, H0 front and both slots empty; its clearing form removes the region. PHSW,
with nothing pending in any declared region, swaps every region, counts the phase up, takes the tag, and writes g[D]
of S on t + 1 with the new phase. While the condition of either does not hold, in a free section, S waits, and no
region changes. That a forbidden overlap is recorded with failing engine 9 is the model's choice: R350 names no line
for PHDECL (log entry 14). (R177, R181, R182, R183) -/
def Obligations.PhaseWordsComplete : Prop :=
  ∀ (hd : Head) (ix : BitVec 4) (base size : BitVec 14) (rd wr g : BitVec 5) (db tag : Bool) (tg : BitVec 16) (s : State),
    (s.Issues hd 0x15 .noShadow →
      let i := Issue.of s hd 0x15
      let r : Region := { base := 256 * base.toNat, size := 256 * (size.toNat + 1), rd := rd, wr := wr, db := db, tag := tag
                          front := 0, slot0 := none, slot1 := none, checked := false }
      (s.core.phdeclReady s.ctime ix (some r) = true → s.core.overlapped ix r = none →
        ∃ t q, exec (.phdecl hd ix base size rd wr db tag) s = .next t ∧
          t.core.timeline = ⟨s.ctime + 1, q, .region ix (some r)⟩ :: s.core.timeline ∧ t.core.regions = s.core.regions) ∧
      (∀ o, s.core.phdeclReady s.ctime ix (some r) = true → s.core.overlapped ix r = some o →
        exec (.phdecl hd ix base size rd wr db tag) s = .next (s.raise (i.info 0x13 9
          (2#8 ++ ix ++ BitVec.ofNat 4 o ++ 0#16) 0 0 false))) ∧
      (s.core.phdeclReady s.ctime ix none = true →
        ∃ t q, exec (.phdeclClear hd ix) s = .next t ∧
          t.core.timeline = ⟨s.ctime + 1, q, .region ix none⟩ :: s.core.timeline ∧ t.core.regions = s.core.regions) ∧
      (let waits := fun (ins : Instr) (x : Option Region) => s.core.phdeclReady s.ctime ix x = false → i.joined = false →
        ∃ t, exec ins s = .next t ∧ (t.core.cl i.c).wait = some (.phdecl ix x) ∧ (t.core.cl i.c).mode = .instrWait ∧
          t.core.regions = s.core.regions ∧ t.core.timeline = s.core.timeline
       waits (.phdecl hd ix base size rd wr db tag) (some r) ∧ waits (.phdeclClear hd ix) none)) ∧
    (s.Issues hd 0x16 .noShadow → s.core.phswReady s.ctime = true →
      ∃ t q, exec (.phsw hd g tg) s = .next t ∧ t.core.phase = s.core.phase + 1 ∧ t.core.expTag = tg ∧
        t.core.regions = s.core.regions.map (fun r => r.map Region.swap) ∧ t.core.swapTrunk = some s.trunk ∧
        t.core.timeline = ⟨s.ctime + 1, q, .wg .S g (BitVec.ofNat 64 (s.core.phase + 1))⟩ :: s.core.timeline) ∧
    (s.IssuesFree hd 0x16 → s.core.phswReady s.ctime = false →
      ∃ t, exec (.phsw hd g tg) s = .next t ∧ (t.core.cl (Issue.of s hd 0x16).c).wait = some (.phsw g tg) ∧
        t.core.holdOthers = true ∧ t.core.phase = s.core.phase ∧ t.core.regions = s.core.regions)

/-- SPILL on a FREE token with the engine free and an address that passes its checks makes the token SPILLING with its
register and address, occupies the engine until t + 66, and puts its 64 row writes and the change to HELD on t + 66 on
the timeline. FILL of a HELD token makes it FILLING, and puts its row moves and, on t + 66, HELD with KEEP or else
FREE on the timeline; with DROP the token is FREE on t + 1 and the engine is not used. QWAIT on an idle token is done.
QTEST writes p[D] on t + 1. A wrong state gives SPILL TOKEN with status 1, 2 or 3, the opcode, the state and the
number, and no other effect. Words that write such state find that its old contents fit the rollback area. (R163,
R164, R165, R166, R167) -/
def Obligations.SpillWordsComplete : Prop :=
  ∀ (hd : Head) (q a : BitVec 4) (m : BitVec 3) (keep : Bool) (p : BitVec 5) (s : State),
    let tok := s.core.readQ q
    let refuses := fun (ins : Instr) (o : Nat) (st : BitVec 8) (code : BitVec 2) =>
      exec ins s = .next (s.raise ((Issue.of s hd o).info 0x72 6 (st ++ BitVec.ofNat 8 o ++ 0#6 ++ code ++ 0#4 ++ q) 0 0 false))
    (s.Issues hd 0x17 .noShadow →
      let i := Issue.of s hd 0x17
      let x := (s.readA i a).toNat
      (tok.state = .free → s.core.spillFree ≤ s.ctime → s.Passes i 3 (imagePlan (s.ctime + 2) true x) →
        ∃ t, exec (.spill hd q a m) s = .next t ∧ t.core.readQ q = ⟨.spilling, m, s.readA i a⟩ ∧
          t.core.spillFree = s.ctime + 66 ∧ (∃ n, ⟨s.ctime + 66, n, .wtok q ⟨.held, m, s.readA i a⟩⟩ ∈ t.core.timeline) ∧
          (s.core.poison = [] → ∀ r, r < 64 → ∃ n, ⟨s.ctime + 2 + r, n, .wr .ls [(x + 256 * r, 256)]
            (s.core.mr.read (16384 * m.toNat + 256 * r) 256)⟩ ∈ t.core.timeline)) ∧
      (tok.state ≠ .free → refuses (.spill hd q a m) 0x17 1 (BitVec.ofNat 2 tok.state.code))) ∧
    (s.Issues hd 0x18 .noShadow →
      let i := Issue.of s hd 0x18
      (tok.state = .held → s.core.spillFree ≤ s.ctime → s.Fits (unitsOf .mr (16384 * m.toNat) 16384) →
        s.Passes i 3 (imagePlan (s.ctime + 1) false tok.addr.toNat) →
        ∃ t, exec (.fill hd q m keep) s = .next t ∧ t.core.readQ q = ⟨.filling, tok.reg, tok.addr⟩ ∧
          t.core.spillFree = s.ctime + 66 ∧
          (∃ n, ⟨s.ctime + 65, n, .reseed true m.toNat⟩ ∈ t.core.timeline) ∧
          (∃ n, ⟨s.ctime + 66, n, .wtok q ⟨if keep then .held else .free, tok.reg, tok.addr⟩⟩ ∈ t.core.timeline) ∧
          (∀ r, r < 64 → ∃ n, ⟨s.ctime + 1 + r, n, .move .ls [(tok.addr.toNat + 256 * r, 256)] .mr
            [(16384 * m.toNat + 256 * r, 256)] 6⟩ ∈ t.core.timeline)) ∧
      (tok.state = .held → exec (.fillDrop hd q) s =
        .next ((s.advance i).after i 1 (.wtok q ⟨.free, tok.reg, tok.addr⟩))) ∧
      (tok.state = .free → refuses (.fill hd q m keep) 0x18 3 0 ∧ refuses (.fillDrop hd q) 0x18 3 0) ∧
      (tok.state = .spilling → refuses (.fill hd q m keep) 0x18 2 1 ∧ refuses (.fillDrop hd q) 0x18 2 1) ∧
      (tok.state = .filling → refuses (.fill hd q m keep) 0x18 2 3 ∧ refuses (.fillDrop hd q) 0x18 2 3)) ∧
    (s.Issues hd 0x19 .noShadow → (tok.state = .free ∨ tok.state = .held) →
      ∃ t, exec (.qwait hd q) s = .next t ∧ t.core = (s.advance (Issue.of s hd 0x19)).core) ∧
    (s.Issues hd 0x1A .noShadow →
      exec (.qtest hd p q) s = .next ((s.advance (Issue.of s hd 0x1A)).writePAfter (Issue.of s hd 0x1A) 1 p
        (tok.state = .free || tok.state = .held)))

/-- ACALLOC and ACFREE put the allocation of their banks on t + 1; ACFREE waits for accesses to its banks. ACBAND sets
the owners of an allocated bank on t + 1. ACRD reads row r on t + 1 + r and so writes it one cycle later; ACWR reads
row r from local store on t + 1 + r and reseeds the lanes after the last row; ACZERO zeroes its range and reseeds on t
+ 1; SCLD reads block r on t + 1 + r. All need their bank allocated, ACRD also the bands of its rows in its drain
group, and none starts while an access to the bank is still to be made: a word of a free section is held, and one of a
joined section raises SCHEDULE MISS cause 3. A bank that is free raises ACC UNALLOCATED, and the lowest band that
belongs to another drain group raises ACC BAND. That the hold for accesses to the bank comes after these two and
before the checks of address, phase and calendar is the model's choice (log entry 57): R285 gives the hold of R279 no
place. Words that write such state find that its old contents fit the rollback area. (R279, R280, R281, R282, R283,
R284, R285, R286) -/
def Obligations.AccumulatorWordsComplete : Prop :=
  ∀ (hd : Head) (b : BitVec 6) (z : Bool) (c1 : BitVec 6) (ow : BitVec 8) (a : BitVec 4) (mc nc : BitVec 3) (first : BitVec 6)
    (grp : BitVec 2) (kc : BitVec 6) (off : BitVec 8) (s : State),
    let n := b.toNat
    let rows := 8 * (mc.toNat + 1)
    let wide := 32 * (nc.toNat + 1)
    let t := s.ctime
    let cell := fun (r : Nat) => 16384 * n + 256 * (first.toNat + r)
    (s.Issues hd 0x50 .noShadow → (z = false ∨ s.Fits (unitsOf .acc (16384 * n) (16384 * (c1.toNat + 1)))) →
      ∃ u, exec (.acalloc hd b z c1) s = .next u ∧ s.Adds u [(t + 1, .alloc n (c1.toNat + 1) true z)]) ∧
    (s.Issues hd 0x51 .noShadow → (∀ j ≤ c1.toNat, s.core.bankBusy (n + j) = false) →
      ∃ u, exec (.acfree hd b c1) s = .next u ∧ s.Adds u [(t + 1, .alloc n (c1.toNat + 1) false false)]) ∧
    (s.Issues hd 0x52 .noShadow → s.core.bankAllocated n = true →
      ∃ u, exec (.acband hd b ow) s = .next u ∧ s.Adds u [(t + 1, .owners n ow)]) ∧
    (s.Issues hd 0x53 .noShadow →
      let x := (s.readA (Issue.of s hd 0x53) a).toNat
      s.core.bankAllocated n = true → s.core.bankBusy n = false →
      (∀ q < 4, first.toNat / 16 ≤ q → q ≤ (first.toNat + rows - 1) / 16 → bandOwner (s.core.bankOwner n) q = grp) →
      s.Passes (Issue.of s hd 0x53) 2 (rowPlan (t + 2) rows wide true x 4) →
      ∃ u, exec (.acrd hd b a mc nc first grp) s = .next u ∧
        s.Adds u ((List.range rows).map fun r => (t + 1 + r, .move .acc [(cell r, wide)] .ls [(x + wide * r, wide)] 1))) ∧
    (s.Issues hd 0x54 .noShadow →
      let x := (s.readA (Issue.of s hd 0x54) a).toNat
      s.core.bankAllocated n = true → s.core.bankBusy n = false → s.Fits (unitsOf .acc (cell 0) (256 * rows)) →
      s.Passes (Issue.of s hd 0x54) 2 (rowPlan (t + 1) rows wide false x 4) →
      ∃ u, exec (.acwr hd b a mc nc first) s = .next u ∧
        s.Adds u ((List.range rows).map (fun r => (t + 1 + r, .move .ls [(x + wide * r, wide)] .acc [(cell r, wide)] 5))
          ++ [(t + 1 + rows, .reseed false n)])) ∧
    (s.Issues hd 0x55 .noShadow → s.core.bankAllocated n = true → s.core.bankBusy n = false →
      s.Fits (unitsOf .acc (cell 0) (256 * rows)) →
      ∃ u, exec (.aczero hd b mc nc first) s = .next u ∧
        s.Adds u [(t + 1, .wr .acc ((List.range rows).map fun r => (cell r, wide)) (List.replicate (wide * rows) 0)),
          (t + 1, .reseed false n)]) ∧
    (s.Issues hd 0x56 .noShadow →
      let x := (s.readA (Issue.of s hd 0x56) a).toNat
      s.Fits (unitsOf .scale (256 * off.toNat) (256 * (kc.toNat + 1))) →
      s.Passes (Issue.of s hd 0x56) 2 (rowPlan (t + 1) (kc.toNat + 1) 256 false x 1) →
      ∃ u, exec (.scld hd a kc off) s = .next u ∧
        s.Adds u ((List.range (kc.toNat + 1)).map fun r =>
          (t + 1 + r, .move .ls [(x + 256 * r, 256)] .scale [(256 * off.toNat + 256 * r, 256)] 5))) ∧
    (s.core.bankAllocated n = false →
      let refuses := fun (ins : Instr) (o : Nat) =>
        s.Issues hd o .noShadow → exec ins s = .next (s.raise ((Issue.of s hd o).info 0x20 5 (statusOpc 1 o n) 0 0 false))
      refuses (.acband hd b ow) 0x52 ∧ refuses (.acrd hd b a mc nc first grp) 0x53 ∧
      refuses (.acwr hd b a mc nc first) 0x54 ∧ refuses (.aczero hd b mc nc first) 0x55) ∧
    (let waits := fun (ins : Instr) (o : Nat) => s.Issues hd o .noShadow →
        ((Issue.of s hd o).joined = false → exec ins s = .next (s.hold (Issue.of s hd o))) ∧
        ((Issue.of s hd o).joined = true →
          exec ins s = .next (s.raise ((Issue.of s hd o).info 0x12 9 (statusOpc 3 o 0) 0 0 false)));
      ((∃ j ≤ c1.toNat, s.core.bankBusy (n + j) = true) → waits (.acfree hd b c1) 0x51) ∧
      (s.core.bankAllocated n = true → s.core.bankBusy n = true →
        waits (.acwr hd b a mc nc first) 0x54 ∧ waits (.aczero hd b mc nc first) 0x55 ∧
        ((∀ q < 4, first.toNat / 16 ≤ q → q ≤ (first.toNat + rows - 1) / 16 → bandOwner (s.core.bankOwner n) q = grp) →
          waits (.acrd hd b a mc nc first grp) 0x53))) ∧
    (∀ q < 4, s.Issues hd 0x53 .noShadow → s.core.bankAllocated n = true →
      let owner := fun (x : Nat) => bandOwner (s.core.bankOwner n) x
      first.toNat / 16 ≤ q → q ≤ (first.toNat + rows - 1) / 16 → owner q ≠ grp →
      (∀ x < q, first.toNat / 16 ≤ x → owner x = grp) →
      exec (.acrd hd b a mc nc first grp) s = .next (s.raise ((Issue.of s hd 0x53).info 0x21 5
        (1#8 ++ 0x53#8 ++ owner q ++ grp ++ 0#2 ++ BitVec.ofNat 2 q ++ 0#2 ++ b) 0 0 false)))

/-- FTSET puts the value of g[S] into its entry on t + 2 where bits [63:32] and bit 1 are zero and, for a valid entry,
both operand formats are ones that an entry may hold; a value that is not valid is stored as 0. Any other value raises
FORMAT TABLE with reason 2 and the entry index, and has no other effect; its failing engine 5 is the model's choice,
as R350 names no line for FTSET (log entry 14). CBLD marks its bank LOADING, reads entry e on t + 1 + e into a slot of
128 bytes, and ends the load with its count, width and source on t + 1 + COUNT. CBWAIT on a bank that nothing reads is
done. CBSAVE reads entry e on t + 1 + e into local store, and the bank's source becomes that address. CBREST loads
again from the bank's source: local store as CBLD; a plane's preload record, entry e written on t + 2 + e and filled
with zeros to its 128 bytes; or, with no source, it empties the bank on t + 1. CBCHK compares entry e on t + 1 + e and
answers its predicate; with no copy in local store it answers true. CBLD or CBREST of a bank whose entries are still
to be expanded raises CODEBOOK BUSY. Words that write such state find that its old contents fit the rollback area.
(R287, R288, R289, R290, R292, R293, R294, R295, R296) -/
def Obligations.FormatAndCodebookWordsComplete : Prop :=
  (∀ (hd : Head) (n : BitVec 4) (g : BitVec 5) (s : State), s.Issues hd 0x85 .noShadow →
      let i := Issue.of s hd 0x85
      let v := s.readG i g
      let fits := fun (f : Nat) => f ≤ 6 ∨ f = 14
      let ok := v.toNat < 2 ^ 32 ∧ v.getLsbD 1 = false ∧
        (v.getLsbD 0 = true → fits (v.toNat / 2 ^ 28 % 16) ∧ fits (v.toNat / 2 ^ 24 % 16))
      (ok → exec (.ftset hd n g) s = .next ((s.advance i).after i 2 (.ftab n (if v.getLsbD 0 then v else 0)))) ∧
      (¬ok → exec (.ftset hd n g) s = .next (s.raise (i.info 0x25 5 (2#8 ++ 0x85#8 ++ 0#12 ++ n) 0 0 false)))) ∧
  (∀ (hd : Head) (b : BitVec 2) (a : BitVec 4) (n1 : BitVec 8) (e1 : BitVec 7) (p : BitVec 5) (s : State),
      let t := s.ctime
      let k := s.core.bank b
      let slot := fun (e : Nat) => 32768 * b.toNat + 128 * e
      let idle := s.core.anyAct (Act.expands b) = false ∧ s.core.loadingNow b = false
      let loads := fun (ins : Instr) (o x n w : Nat) =>
        s.Passes (Issue.of s hd o) 2 (entryPlan (t + 1) n w false x) → s.Fits (unitsOf .cb (slot 0) (128 * n)) →
        ∃ u, exec ins s = .next u ∧ (u.core.bank b).loading = true ∧ (u.core.bank b).count = k.count ∧
          s.Adds u ((List.range n).map (fun e => (t + 1 + e, .move .ls [(x + w * e, w)] .cb [(slot e, 128)] 5)) ++
            [(t + 1 + n, .cbend b.toNat n w (.ls x))])
      (s.Issues hd 0x80 .noShadow → idle →
        loads (.cbld hd b a n1 e1) 0x80 (s.readA (Issue.of s hd 0x80) a).toNat (n1.toNat + 1) (e1.toNat + 1)) ∧
      (s.Issues hd 0x80 .noShadow → s.core.anyAct (Act.expands b) = true →
        exec (.cbld hd b a n1 e1) s = .next (s.raise ((Issue.of s hd 0x80).info 0x23 12 (statusOpc 1 0x80 b.toNat) 0 0 false))) ∧
      (s.Issues hd 0x83 .noShadow → s.core.anyAct (Act.expands b) = true →
        exec (.cbrest hd b) s = .next (s.raise ((Issue.of s hd 0x83).info 0x23 12 (statusOpc 1 0x83 b.toNat) 0 0 false))) ∧
      (s.Issues hd 0x81 .noShadow → (∀ e ∈ s.core.timeline, e.act.readsBank b = false) →
        ∃ u, exec (.cbwait hd b) s = .next u ∧ u.core = (s.advance (Issue.of s hd 0x81)).core) ∧
      (s.Issues hd 0x82 .noShadow → s.core.loadingNow b = false →
        let x := (s.readA (Issue.of s hd 0x82) a).toNat
        s.Passes (Issue.of s hd 0x82) 2 (entryPlan (t + 2) k.count k.ebytes true x) →
        ∃ u, exec (.cbsave hd b a) s = .next u ∧
          s.Adds u ((List.range k.count).map (fun e =>
              (t + 1 + e, .move .cb [(slot e, k.ebytes)] .ls [(x + k.ebytes * e, k.ebytes)] 2)) ++
            [(t + 1 + k.count, .cbsrc b.toNat (.ls x))])) ∧
      (s.Issues hd 0x83 .noShadow → idle →
        (∀ x, k.source = .ls x → loads (.cbrest hd b) 0x83 x k.count k.ebytes) ∧
        (k.source = .none → ∃ u, exec (.cbrest hd b) s = .next u ∧ s.Adds u [(t + 1, .cbend b.toNat 0 k.ebytes .none)]) ∧
        (∀ sec, k.source = .plane sec → s.Fits (unitsOf .cb (slot 0) (128 * k.count)) →
          let entry := fun (e : Nat) =>
            ((preloadBytes s.activePlane sec (k.count * k.ebytes)).drop (k.ebytes * e)).take k.ebytes
          ∃ u, exec (.cbrest hd b) s = .next u ∧ (u.core.bank b).loading = true ∧ (u.core.bank b).count = k.count ∧
          s.Adds u ((List.range k.count).map (fun e => (t + 2 + e, .wr .cb [(slot e, 128)]
              (entry e ++ List.replicate (128 - (entry e).length) 0))) ++
            [(t + 1 + k.count, .cbend b.toNat k.count k.ebytes (.plane sec))]))) ∧
      (s.Issues hd 0x84 .noShadow → s.core.loadingNow b = false →
        (∀ x, k.source = .ls x → s.Passes (Issue.of s hd 0x84) 2 (entryPlan (t + 1) k.count k.ebytes false x) →
          ∃ u id, exec (.cbchk hd p b) s = .next u ∧
            s.Adds u ((List.range k.count).map (fun e => (t + 1 + e, .cbcmp id b.toNat e k.ebytes (x + k.ebytes * e))) ++
              [(t + 1 + k.count, .cbans id p)])) ∧
        ((∀ x, k.source ≠ .ls x) → exec (.cbchk hd p b) s =
          .next ((s.advance (Issue.of s hd 0x84)).writePAfter (Issue.of s hd 0x84) (2 + k.count) p true))))

/-- With CNT 0 a vector word only issues. Otherwise, with the engine free, the word's schedule passing its checks, and
for VCBX a selector that its bank agrees with, the word occupies the engine until its next-issue cycle and puts its
reads on the timeline: part p of segment r on t + 1 + r + p (VSCAN: t + 1 + 16r + p), with what the word read on its
issue cycle; and nothing else is changed at issue. (R65, R100, R145, R186, R188, R200) -/
def Obligations.VectorWordsComplete : Prop :=
  ∀ (hd : Head) (v : VOps) (s : State),
    let gives := fun (ins : Instr) (op : VFn) =>
      let i := Issue.of s hd op.opc
      let u := s.advance i
      let j := vecJob op v i u
      let sel := s.core.readCb (field v.mod 0 2)
      let al := j.aligns (efSize (selEf sel))
      s.Issues hd op.opc .noShadow →
      (v.cnt = 0 → exec ins s = .next u) ∧
      (v.cnt ≠ 0 → s.core.vecFree ≤ s.ctime → s.Passes i 1 (j.plan al.1 al.2) →
        (op = .cbx → s.core.loadingNow (selBank sel) = false ∧ s.core.selectorOk sel = true ∧
          (∃ x ≤ 7, selElems sel * efSize (selEf sel) = 2 ^ x)) →
        ∃ t, exec ins s = .next t ∧ t.core.vecFree = j.next ∧ s.Adds t j.acts ∧ s.SameContents t ∧
          ∀ r p, r < v.cnt.toNat → p < 16 →
            ∃ q, ⟨if op = .scan then s.ctime + 1 + 16 * r + p else s.ctime + 1 + r + p, q, .vec j r p⟩ ∈ t.core.timeline)
    gives (.vadd hd v) .add ∧ gives (.vsub hd v) .sub ∧ gives (.vmul hd v) .mul ∧ gives (.vfma hd v) .fma ∧
    gives (.vmax hd v) .max ∧ gives (.vmin hd v) .min ∧ gives (.vabs hd v) .abs ∧ gives (.vneg hd v) .neg ∧
    gives (.vclamp hd v) .clamp ∧ gives (.vrcp hd v) .rcp ∧ gives (.vrsqrt hd v) .rsqrt ∧ gives (.vsqrt hd v) .sqrt ∧
    gives (.vexp2 hd v) .exp2 ∧ gives (.vlog2 hd v) .log2 ∧ gives (.vtanh hd v) .tanh ∧ gives (.vrsum hd v) .rsum ∧
    gives (.vrmax hd v) .rmax ∧ gives (.vrmin hd v) .rmin ∧ gives (.vscan hd v) .scan ∧ gives (.vcmp hd v) .cmp ∧
    gives (.vsel hd v) .sel ∧ gives (.vcompact hd v) .compact ∧ gives (.viota hd v) .iota ∧ gives (.vtopk hd v) .topk ∧
    gives (.vgather hd v) .gather ∧ gives (.vbcast hd v) .bcast ∧ gives (.vmov hd v) .mov ∧ gives (.vand hd v) .and ∧
    gives (.vor hd v) .or ∧ gives (.vxor hd v) .xor ∧ gives (.vshl hd v) .shl ∧ gives (.vshr hd v) .shr ∧
    gives (.vrand hd v) .rand ∧ gives (.vcbx hd v) .cbx ∧ gives (.vcvt hd v) .cvt ∧ gives (.vquant hd v) .quant ∧
    gives (.vdeq hd v) .deq ∧ gives (.vbscl hd v) .bscl ∧ gives (.vpack hd v) .pack ∧ gives (.vunpack hd v) .unpack

/-- On the cycle of its effective stamp, with a format-table entry that accepts the shape, its banks allocated, its
operands landed, its selector and scales accepted, and its operand reads passing their checks, a product word occupies
the engine until t + 32 and puts its reads on the timeline: row r of A and column r of B on t + 1 + r/4, and the
product itself, which performs on t + 40, computed from them after t + 39. A stamp that is still to come holds the
word in a free section. Words that write such state find that its old contents fit the rollback area. (R97, R299,
R300, R301, R302, R304, R305, R306, R307, R310) -/
def Obligations.ProductWordsComplete : Prop :=
  ∀ (hd : Head) (acc : BitVec 6) (mreg : BitVec 3) (o : ProdOps) (s : State),
    let gives := fun (ins : Instr) (opc : Nat) (mr : Bool) (dest : Nat) =>
      let i := Issue.of s hd opc
      let u := s.advance i
      let ix := entryIx o s
      let e := s.core.ftab[ix.toNat]'(by omega)
      let sel := s.core.readCb (entryCbs e)
      let m := 8 * (o.mcode.toNat + 1)
      let n := 8 * (o.ncode.toNat + 1)
      let k := 4 * (o.kcode.toNat + 1)
      let a := operandOf o.a (entryAf e) sel k i s
      let b := operandOf o.b (entryBf e) sel k i s
      let f64 := decide (a.fmt = 0)
      let p : Prod :=
        { id := u.core.seq, opc := opc, mr := mr, dest := dest, f64 := f64, pair := f64 && n > 32 && !mr
          m := m, n := n, k := k, a := a, b := b, bank := (selBank sel).toNat
          st := if entryTensor e then some (fieldN (s.core.readY (entryY e)) 0 32) else none
          fti := ix.toNat, tol := entryTol e, mcode := o.mcode, ncode := o.ncode, kcode := o.kcode
          stamp := effStamp o i u, t := s.ctime, at_ := i.at_ }
      let sa := if entryBlock e then (u.core.blockScales (32 * entrySbase e) m k).1 else []
      let sb := if entryBlock e then (u.core.blockScales (32 * entrySbase e + 512) n k).1 else []
      let q : Prod := { p with a := { a with scales := sa }, b := { b with scales := sb } }
      s.Issues hd opc .noShadow →
      (effStamp o i u = BitVec.ofNat 24 s.ctime → shapeReason e sel mr dest n k = 0 →
        (∀ d ∈ p.banks, s.core.bankAllocated d = true) → s.core.notLanded p = none →
        (a.index = true ∨ b.index = true → s.core.selectorOk sel = true) → p.st.any tensorRefused = false →
        firstRefused sa = none → firstRefused sb = none →
        s.Fits (q.rowUnits ++ q.preUnits) →
        s.Passes i 2 (q.a.plan s.ctime m ++ q.b.plan s.ctime n) →
        ∃ t, exec ins s = .next t ∧ t.core.mxFree = s.ctime + 32 ∧
          s.Adds t ((List.range m).map (fun r => (s.ctime + 1 + r / 4, .prow q false r)) ++
            (List.range n).map (fun r => (s.ctime + 1 + r / 4, .prow q true r)) ++ [(s.ctime + 39, .pcomp q)])) ∧
      (i.joined = false → effStamp o i u ≠ BitVec.ofNat 24 s.ctime →
        (effStamp o i u - BitVec.ofNat 24 s.ctime).toNat < 2 ^ 23 → exec ins s = .next (s.hold i))
    gives (.mma hd acc o) 0x40 false acc.toNat ∧ gives (.mmas hd acc o) 0x41 false acc.toNat ∧
    gives (.mmac hd mreg o) 0x42 true mreg.toNat

/-- With no product that touches the register still at work and their accesses passing their checks: MLD reads its
image from local store from t + 1 on, one row a cycle, and reseeds the lanes after the last write; MST reads the cells
from t + 1 on; MMOV reads on t + 1 and reseeds on t + 2; MZERO zeroes its cells and reseeds on t + 1; MTOLS reads its
64 bytes on t + 1. A whole register is 64 rows of 256 bytes, and a row, a column or the diagonal is one image of 256
bytes. Words that write such state find that its old contents fit the rollback area. (R151, R308, R311, R314, R316) -/
def Obligations.MatrixMovesComplete : Prop :=
  ∀ (hd : Head) (m d : BitVec 3) (a : BitVec 4) (part : MPart) (s : State),
    let t := s.ctime
    let cells := MPart.pieces m.toNat part
    let n := if part = .whole then 64 else 1
    let piece := fun (r : Nat) => if part = .whole then [(16384 * m.toNat + 256 * r, 256)] else cells
    (s.Issues hd 0x43 .noShadow → s.core.regBusy m.toNat = false → s.Fits (unitsOfPart m.toNat part) →
      let x := (s.readA (Issue.of s hd 0x43) a).toNat
      s.Passes (Issue.of s hd 0x43) 2 (rowPlan (t + 1) n 256 false x 4) →
      ∃ u, exec (.mld hd m a part) s = .next u ∧
        s.Adds u ((List.range n).map (fun r => (t + 1 + r, .move .ls [(x + 256 * r, 256)] .mr (piece r) 5)) ++
          [(t + 1 + n, .reseed true m.toNat)])) ∧
    (s.Issues hd 0x44 .noShadow → s.core.regBusy m.toNat = false →
      let x := (s.readA (Issue.of s hd 0x44) a).toNat
      s.Passes (Issue.of s hd 0x44) 2 (rowPlan (t + 2) n 256 true x 4) →
      ∃ u, exec (.mst hd m a part) s = .next u ∧
        s.Adds u ((List.range n).map fun r => (t + 1 + r, .move .mr (piece r) .ls [(x + 256 * r, 256)] 5))) ∧
    (s.Issues hd 0x45 .noShadow → s.core.regBusy d.toNat = false → s.Fits (unitsOfPart d.toNat part) →
      ∃ u, exec (.mmov hd d m part) s = .next u ∧
        s.Adds u [(t + 1, .move .mr cells .mr (MPart.pieces d.toNat part) 5), (t + 2, .reseed true d.toNat)]) ∧
    (s.Issues hd 0x46 .noShadow → s.core.regBusy m.toNat = false → s.Fits (unitsOfPart m.toNat part) →
      ∃ u z, exec (.mzero hd m part) s = .next u ∧ (∀ b ∈ z, b = 0) ∧ z.length = (if part = .whole then 16384 else 256) ∧
        s.Adds u [(t + 1, .wr .mr cells z), (t + 1, .reseed true m.toNat)]) ∧
    (s.Issues hd 0x4C .noShadow →
      let x := (s.readA (Issue.of s hd 0x4C) a).toNat
      s.Passes (Issue.of s hd 0x4C) 2 [⟨t + 1, 5, false, x, 64, 8, false⟩] →
      ∃ u, exec (.mtols hd a) s = .next u ∧ s.Adds u [(t + 1, .tols x)])

/-- With every write to the destination (or its pair) performed and its banks allocated: MCHK with no mismatch makes
UC of the destination 0 and counts the lines it skipped in CIR; with one it raises MX CHECKSUM, reason 1, with the row
and column masks, and with NXT it has completed by then. MLOC writes g[G] on t + 2 with what it found. MFIX writes 0
on t + 2 for a clean destination. For one bad row and one bad column it writes, on t + 1, the cell where they meet:
where MXRET names the destination and UC is 1, what the recorded product and the pre-image give for that cell, with 1
in g[G] on t + 2; otherwise the row's lane less the row's other cells, with 2. For any other mismatch it raises MX
CHECKSUM, reason 3. MRETRY with a record of exactly this destination and UC 1 restores, on t + 1, the pre-image it has
read, and computes after t + 39; with no record, another destination's record, or UC not 1 it raises MX RETRY LOST
with reason 1, 2 or 3. Words that write such state find that its old contents fit the rollback area. With every write
to the bank performed, the bank allocated, the bands of its rows in the word's drain group, every row of its range
clean (and every column too, where the range is the whole bank), and its writes passing their checks, MDRAIN reads row
r on t + 1 + r and so writes it to local store one cycle later. A mismatch raises MX CHECKSUM with reason 1, and
nothing is drained. (R281, R308, R317, R318, R319, R320, R321, R322, R323, R324) -/
def Obligations.CheckWordsComplete : Prop :=
  (∀ (hd : Head) (d : MDest) (nxt : Bool) (g : BitVec 5) (s : State), s.core.destSettled d (s.core.seq + 1) = true →
      (destMr d = true ∨ s.core.bankAllocated (destNo d) = true) →
      let r := (s.core.checkAll d).1
      let masks := (maskOf r.rows, maskOf r.cols)
      let first := s.core.destFirst d
      let lanes := s.core.lanesOf (destMr d) first
      let images := if s.core.recorded d then (if s.core.retry.any (·.prod.pair) then 2#2 else 1#2) else 0#2
      let status := fun (reason opc : BitVec 8) => reason ++ opc ++ bit1 (destMr d) ++ BitVec.ofNat 6 (destNo d) ++ images ++ 0#7
      let clean := r.rows = [] ∧ r.cols = []
      (s.Issues hd 0x48 .noShadow → clean →
        ∃ t, exec (.mchk hd d nxt) s = .next t ∧ t.core.timeline = s.core.timeline ∧
          s.core.SameRegisters t.core ∧ s.SameMemory t ∧ t.core.mxret = s.core.mxret ∧ t.core.faultQ = s.core.faultQ ∧
          (t.core.lanesOf (destMr d) first).uc = 0 ∧
          (s.core.poison = [] → t.core.cir = (s.core.addUnchecked r.skipped).cir)) ∧
      (s.Issues hd 0x48 .noShadow → ¬clean → nxt = false → exec (.mchk hd d nxt) s =
        .next (s.raise ((Issue.of s hd 0x48).info 0x30 5 (status 1 0x48) masks.1 masks.2 false))) ∧
      (s.Issues hd 0x48 .noShadow → ¬clean → nxt = true → s.core.poison = [] →
        let u := s.advance (Issue.of s hd 0x48)
        let v := State.raise { u with core := u.core.addUnchecked r.skipped }
          ((Issue.of s hd 0x48).info 0x30 5 (status 1 0x48) masks.1 masks.2 true)
        ∃ t, exec (.mchk hd d nxt) s = .next t ∧ t.core = v.core ∧ t.faultBuf = v.faultBuf ∧ t.recSeq = v.recSeq ∧
          t.overflow = v.overflow ∧ t.tenants = v.tenants ∧ s.SameMemory t) ∧
      (s.Issues hd 0x49 .noShadow → s.core.shadow.active = false →
        ∃ t, exec (.mloc hd d g) s = .next t ∧ s.SameMemory t ∧
          s.Adds t [(s.ctime + 2, .wg (Issue.of s hd 0x49).c g (locWord r))]) ∧
      (s.Issues hd 0x4A .noShadow → s.core.shadow.active = false →
        let i := Issue.of s hd 0x4A
        (clean → ∃ t, exec (.mfix hd d g) s = .next t ∧ s.SameMemory t ∧ s.Adds t [(s.ctime + 2, .wg i.c g 0)]) ∧
        (∀ row col, r.rows = [row] → r.cols = [col] →
          let addr := cellAddr (destMr d) lanes.f64 first row col
          let puts := fun (bs : List Byte) (method : Nat) => s.Fits (unitsOf (destMem (destMr d)) addr bs.length) →
            ∃ t, exec (.mfix hd d g) s = .next t ∧ s.SameMemory t ∧
              s.Adds t [(s.ctime + 1, .fix (destMr d) (destNo d) row col addr bs (method = 2) i.at_),
                (s.ctime + 2, .wg i.c g (BitVec.ofNat 64 method))]
          (∀ x, s.core.recorded d = true → lanes.uc = 1 → s.core.retry = some x → puts (s.core.methodOne x row col).1 1) ∧
          (s.core.recorded d = false ∨ lanes.uc ≠ 1 → puts (s.core.methodTwo (destMr d) first row col).1 2)) ∧
        (¬clean → ¬(r.rows.length = 1 ∧ r.cols.length = 1) → exec (.mfix hd d g) s =
          .next (s.raise (i.info 0x30 5 (status 3 0x4A) masks.1 masks.2 false)))) ∧
      (s.Issues hd 0x4B .noShadow → s.core.mxFree ≤ s.ctime →
        let lost := fun (reason : BitVec 8) => exec (.mretry hd d) s = .next (s.raise ((Issue.of s hd 0x4B).info 0x31 5
          (reason ++ 0x4B#8 ++ bit1 (destMr d) ++ BitVec.ofNat 6 (destNo d) ++ 0#9) 0 0 false))
        let named := s.core.retNames (destMr d) (destNo d)
        let uc := (s.core.lanesOf (destMr d) (destNo d)).uc
        (∀ x, s.core.retry = some x → s.core.mxret.getLsbD 63 = true → named = true → uc = 1 → s.Fits x.prod.units →
          ∃ t, exec (.mretry hd d) s = .next t ∧ t.core.mxFree = s.ctime + 32 ∧
            s.Adds t [(s.ctime + 1, .restore x (s.core.preBytes x.prod).1), (s.ctime + 39, .rcomp x)]) ∧
        (s.core.mxret.getLsbD 63 = false → lost 1) ∧
        (s.core.mxret.getLsbD 63 = true → named = false → lost 2) ∧
        (s.core.mxret.getLsbD 63 = true → named = true → uc ≠ 1 → lost 3))) ∧
  (∀ (hd : Head) (b : BitVec 6) (a : BitVec 4) (mc nc : BitVec 3) (first : BitVec 6) (grp : BitVec 2) (s : State),
      let n := b.toNat
      let rows := 8 * (mc.toNat + 1)
      let wide := 32 * (nc.toNat + 1)
      let i := Issue.of s hd 0x47
      let x := (s.readA i a).toNat
      let whole := first = 0 ∧ rows = 64
      let r := (s.core.checkDest false n ((List.range rows).map (first.toNat + ·)) (if whole then List.range 64 else [])).1
      s.Issues hd 0x47 .noShadow → s.core.destSettled (.bank b) (s.core.seq + 1) = true → s.core.bankAllocated n = true →
      (∀ q < 4, first.toNat / 16 ≤ q → q ≤ (first.toNat + rows - 1) / 16 → bandOwner (s.core.bankOwner n) q = grp) →
      (r.rows = [] → r.cols = [] → s.Passes i 2 (rowPlan (s.ctime + 2) rows wide true x 4) →
        ∃ t, exec (.mdrain hd b a mc nc first grp) s = .next t ∧
          s.Adds t ((List.range rows).map fun q => (s.ctime + 1 + q,
            .move .acc [(16384 * n + 256 * (first.toNat + q), wide)] .ls [(x + wide * q, wide)] 1))) ∧
      (r.rows ≠ [] ∨ r.cols ≠ [] →
        exec (.mdrain hd b a mc nc first grp) s =
          .next (s.raise (i.info 0x30 5 (s.core.mxStatus 1 0x47 (.bank b)) (maskOf r.rows) (maskOf r.cols) false))))

/-- A copy-in whose checks and holds all pass, on lines that the rollback area has room for, puts one command at the
end of the copy queue: its lines are, in order, the pairs of a destination line and its page offset that the word's
form names (COUNT lines; COUNT rows of ROWLINES + 1 lines, PITCH lines apart; the rows of the list in local store),
with the word's region, tag and depth; nothing else that a program can read changes. On the first cycle on which the
word could issue, the first check that fails raises its fault instead, a handle that is not valid before all others;
on a later cycle a word of a free section that is still held is only held. (R206, R209, R210, R211, R212, R395) -/
def Obligations.CopyWordsComplete : Prop :=
  ∀ (hd : Head) (o : CopyOps) (pitch : BitVec 12) (rl : BitVec 8) (lst : BitVec 4) (s : State),
    let gives := fun (ins : Instr) (opc : Nat) (list : Option (Nat × Nat)) (rows : List (Nat × Nat)) (offs : List Nat) =>
      let i := Issue.of s hd opc
      let p : CopyPlan := ⟨o.h, rows, list, (s.readA i o.a).toNat, o.region, o.tag, o.depth.toNat⟩
      s.Issues hd opc .noShadow →
      (s.copyFault p s.ctime = none → s.core.copyHolds p s.ctime = false → (i.joined = true → s.requestOpen s.ctime = false) →
        s.Fits (unitsOf .ls p.dest (64 * p.count)) →
        ∃ t q, exec ins s = .next t ∧ t.core.copyQ = s.core.copyQ ++ [q] ∧
          q.lines = (offs.zipIdx.map fun x => (p.dest / 64 + x.2, x.1)) ∧ q.start = none ∧ q.issued = s.ctime ∧
          q.h = s.core.readH o.h ∧ q.region = o.region ∧ q.tag = o.tag ∧ q.depth = o.depth.toNat ∧ q.joined = i.joined ∧
          t.core.timeline = s.core.timeline ∧ s.SameContents t) ∧
      (∀ code eng st, i.retry = false → s.copyFault p s.ctime = some (code, eng, st) →
        exec ins s = .next (s.raise (i.info code eng st 0 0 false))) ∧
      (i.retry = true → i.joined = false → s.core.copyHolds p s.ctime = true → exec ins s = .next (s.hold i)) ∧
      (i.retry = false → (s.core.readH o.h).valid = false → exec ins s = .next (s.raise (i.info 0x40 11 (0#4 ++ o.h ++ 0#23) 0 0 false)))
    let go := fun (opc : Nat) => (s.readG (Issue.of s hd opc) o.goff).toNat
    let row := fun (a : Nat) => (List.range (rl.toNat + 1)).map fun n => a + 64 * n
    let wide := 64 * (rl.toNat + 1)
    let la := (s.readA (Issue.of s hd 0x92) lst).toNat
    let entry := fun (r : Nat) => ofBytes (s.core.readMem .ls cirPX (la + 4 * r) 4).1
    gives (.cpin hd o) 0x90 none [(go 0x90, 64 * o.count.toNat)] ((List.range o.count.toNat).map fun n => go 0x90 + 64 * n) ∧
    gives (.cpin2 hd o pitch rl) 0x91 none
      ((List.range o.count.toNat).map fun r => (go 0x91 + r * 64 * pitch.toNat, wide))
      ((List.range o.count.toNat).flatMap fun r => row (go 0x91 + r * 64 * pitch.toNat)) ∧
    gives (.gather hd o lst rl) 0x92 (some (la, 4 * o.count.toNat))
      ((List.range o.count.toNat).map fun r => (go 0x92 + 64 * entry r, wide))
      ((List.range o.count.toNat).flatMap fun r => row (go 0x92 + 64 * entry r))

/-- A prefetch, pin or discard that passes its handle checks, on a token that is not BUSY, makes the token BUSY with
one new operation that ends on a later trunk cycle; on a tier-0 page a prefetch or pin needs none and its token is
DONE with the unit count at once. On a BUSY token the word issues and waits for it, in a free section. PFUNPIN takes
effect on t + 1. PFWAIT on a token that is not BUSY writes its count (0 for a FREE one) on t + 1 and frees the token;
on a BUSY one it waits, in a free section. (R222, R223, R224, R225, R226) -/
def Obligations.ResidencyWordsComplete : Prop :=
  ∀ (hd : Head) (h go g : BitVec 5) (units : BitVec 12) (tok : BitVec 4) (s : State),
    let key := (s.core.phase, s.core.phaseIdx)
    let gives := fun (ins : Instr) (opc : Nat) (kind : PfKind) =>
      let i := Issue.of s hd opc
      let off := (s.readG i go).toNat
      let hdl := s.core.readH h
      let simple := kind ≠ .discard ∧ hdl.tier = 0
      s.Issues hd opc .noShadow → s.unitsFault (kind = .discard) h off units.toNat = none →
      ((∀ n, s.core.token tok ≠ .busy n) → simple →
        ∃ t, exec ins s = .next t ∧ t.core.token tok = .done units.toNat ∧ t.pfops = s.pfops ∧ s.SameContents t) ∧
      ((∀ n, s.core.token tok ≠ .busy n) → ¬simple →
        ∃ t o, exec ins s = .next t ∧ t.core.token tok = .busy o.id ∧ t.pfops = s.pfops ++ [o] ∧ o.tok = tok ∧ o.kind = kind ∧
          o.h = hdl ∧ o.off = off ∧ o.units = units.toNat ∧ s.trunk < o.due ∧ s.SameContents t) ∧
      (∀ n, s.core.token tok = .busy n → i.joined = false → ∃ t, exec ins s = .next t ∧ t.core.token tok = .busy n ∧
        t.pfops = s.pfops ∧ (t.core.cl i.c).wait = some (.prefetch kind hdl off units.toNat tok key) ∧ s.SameContents t)
    gives (.pfetch hd h go units tok) 0x93 .fetch ∧ gives (.pfpin hd h go units tok) 0x95 .pin ∧
    gives (.discard hd h go units tok) 0x97 .discard ∧
    (s.Issues hd 0x96 .noShadow →
      let off := (s.readG (Issue.of s hd 0x96) go).toNat
      s.unitsFault false h off units.toNat = none →
      ∃ t, exec (.pfunpin hd h go units) s = .next t ∧
        s.Adds t [(s.ctime + 1, .unpin key (s.core.readH h) off units.toNat)] ∧ s.SameContents t) ∧
    (s.Issues hd 0x94 .noShadow →
      let i := Issue.of s hd 0x94
      let done := fun (n : Nat) => ∃ t, exec (.pfwait hd g tok) s = .next t ∧ t.core.token tok = .free ∧
        s.Adds t [(s.ctime + 1, .wg .L g (BitVec.ofNat 64 n))] ∧ s.SameContents t
      (∀ n, s.core.token tok = .done n → done n) ∧ (s.core.token tok = .free → done 0) ∧
      (∀ n, s.core.token tok = .busy n → i.joined = false →
        ∃ t, exec (.pfwait hd g tok) s = .next t ∧ (t.core.cl i.c).wait = some (.pfwait g tok) ∧ t.core.timeline = s.core.timeline))

/-- XLATE performs its lookup on t + 24 with the address that g[S] held at issue. HDROP and HMOV write the handle on t
+ 1. HTEST writes the descriptor of R202 on t + 2, every field of it, and zero for an invalid handle. SLOTRD writes on
t + 2: an entry of the slot table, of which only the kind shows where another tenant owns it; the largest cyclic
distance between consecutive read slots of a group that name the core and its tenant, 0xFFFF with no slot and 1,024
with one (that a slot of another tenant on the core is not the context's is the model's reading, log entry 66); or the
drawer's read latency. (R146, R202, R204, R205, R216, R217, R220) -/
def Obligations.HandleWordsComplete : Prop :=
  ∀ (hd : Head) (h d g : BitVec 5) (grp : BitVec 4) (slot : BitVec 10) (s : State),
    (s.Issues hd 0xA0 .noShadow →
      let i := Issue.of s hd 0xA0
      exec (.xlate hd h g) s = .next ((s.advance i).after i 24 (.xlate h (s.readG i g) i.at_))) ∧
    (s.Issues hd 0xA1 .noShadow →
      let i := Issue.of s hd 0xA1
      exec (.hdrop hd h) s = .next ((s.advance i).after i 1 (.wh h .invalid))) ∧
    (s.Issues hd 0xA3 .noShadow →
      let i := Issue.of s hd 0xA3
      exec (.hmov hd d h) s = .next ((s.advance i).after i 1 (.wh d (s.core.readH h)))) ∧
    (s.Issues hd 0xA2 .noShadow →
      let i := Issue.of s hd 0xA2
      let x := s.core.readH h
      ∃ v : Word, exec (.htest hd g h) s = .next ((s.advance i).after i 2 (.wg i.c g v)) ∧
        (x.valid = false → v = 0) ∧
        (x.valid = true → v.getLsbD 63 = true ∧ v.extractLsb' 60 3 = x.tier ∧ v.extractLsb' 58 2 = x.home ∧
          v.extractLsb' 56 2 = x.psz ∧ v.getLsbD 55 = x.pr ∧ v.getLsbD 54 = x.pp ∧ v.getLsbD 53 = x.pd ∧ v.getLsbD 52 = false ∧
          v.extractLsb' 48 4 = x.tenant ∧ v.extractLsb' 24 24 = x.tid ∧ v.extractLsb' 0 24 = 0)) ∧
    (s.Issues hd 0x98 .noShadow →
      let i := Issue.of s hd 0x98
      let gives := fun (w : Instr) (v : Word) => exec w s = .next ((s.advance i).after i 2 (.wg i.c g v))
      let e := s.slotEntry grp.toNat slot.toNat
      let kind : BitVec 2 := e.extractLsb' 30 2
      let own := s.ownSlots grp.toNat
      let dist := fun (j : Nat) =>
        if j + 1 < own.length then own.getD (j + 1) 0 - own.getD j 0 else own.getD 0 0 + 1024 - own.getD j 0
      let foreign := (kind = 1 ∨ kind = 2) ∧ (e.extractLsb' 26 4 : BitVec 4) ≠ s.core.tenant
      (foreign → gives (.slotrdEntry hd g grp slot) (0#32 ++ kind ++ 0#30)) ∧
      (¬foreign → gives (.slotrdEntry hd g grp slot) (0#32 ++ e)) ∧
      (∀ n < 1024, n ∈ own ↔
        (let e := s.slotEntry grp.toNat n
         e.extractLsb' 30 2 = 1#2 ∧ (e.extractLsb' 18 8).toNat = s.core.pcore.toNat ∧ e.extractLsb' 26 4 = s.core.tenant)) ∧
      (own = [] → gives (.slotrdGap hd g grp) 0xFFFF) ∧
      (own ≠ [] → ∃ n, gives (.slotrdGap hd g grp) (BitVec.ofNat 64 n) ∧
        (∀ j < own.length, dist j ≤ n) ∧ ∃ j < own.length, dist j = n) ∧
      (∀ x, own = [x] → gives (.slotrdGap hd g grp) 1024) ∧
      gives (.slotrdLat hd g) (BitVec.ofNat 64 s.drawerL))

/-- PST, PADD, PMAX, PMIN, PXOR, POR and PAND, with their handle, format and footprint checks passed, their data reads
accepted and a name left, take the task's next name, write it to g[G2] on t + 1, read 64 bytes of their data on each
cycle from the first on which the patch engine is free, and leave one outstanding operation that carries the record:
its tensor, name, kind, format, first element, rows, columns and pitch, its issuer and the task's start floor, and no
replay set yet. The counter of names goes up by one, and nothing else that a program can read changes. With 32
operations outstanding the word issues all the same and its cluster waits for its operation to be taken up, in a free
section; in a joined one it raises SCHEDULE MISS cause 3. With no name left the word raises PATCH STORE FULL reason 3,
at issue and with engine 7 by the model's reading (log entry 14). (R109, R230, R231, R235, R245, R246, R248, R249,
R250) -/
def Obligations.RecordingWordsComplete : Prop :=
  ∀ (hd : Head) (o : PatchOps) (sat : Bool) (s : State),
    let gives := fun (ins : Instr) (k : PKind) (sb : Bool) =>
      let i := Issue.of s hd 0xB0
      let f := s.footOf i o
      let bytes := 16 * (o.rowlen.toNat + 1)
      let total := (o.rows.toNat + 1) * bytes
      let n := (total + 63) / 64
      let addr := (s.readA i o.a).toNat
      let s0 := max (s.ctime + 1) s.core.patchFree
      let name := makeName (s.core.readK 6) s.origin s.core.pseq
      let hdl := s.core.readH o.h
      s.Issues hd 0xB0 .noShadow →
      ((s.patchHandleFault o.h (PKind.remote k)).orElse (s.pairFault o.h k o.ef.toNat)).orElse (s.footFault o.h bytes f) = none →
      s.Passes i 4 (patchPlan s0 addr total) →
      (s.core.pseq < 2 ^ 17 → (32 ≤ s.core.outstanding → i.joined = false) →
        ∃ t q r, exec ins s = .next t ∧ t.core.ops = s.core.ops ++ [q] ∧ q.outstanding = true ∧ q.state = .reading ∧
          q.h = hdl ∧ q.kind = .record r addr total ∧ r.tid = hdl.tid ∧ r.tenant = hdl.tenant ∧ r.name = name ∧ r.kind = k ∧
          r.sat = sb ∧ r.ef = o.ef.toNat ∧ (∀ v, s.viewOf hdl = some v → r.first = v.elemOf hdl f.off) ∧
          r.rows = o.rows.toNat + 1 ∧ r.cols = f.cols ∧ r.pitch = f.pitch ∧ r.sf = s.taskFloor ∧ r.rs = none ∧
          r.issuer = s.core.pcore.toNat ∧ r.poisoned = false ∧ r.folded = [] ∧ t.core.pseq = s.core.pseq + 1 ∧
          t.core.patchFree = s0 + n ∧ s.SameContents t ∧
          (t.core.cl i.c).wait = (if 32 ≤ s.core.outstanding then some (.slot q.id) else none) ∧
          s.Adds t ((s.ctime + 1, .wg i.c o.g2 name) :: (List.range n).map fun j => (s0 + j, .patchRead q.id j))) ∧
      (2 ^ 17 ≤ s.core.pseq →
        exec ins s = .next (s.raise (i.info 0x54 7 (3#8 ++ (s.core.readH o.h).tid) 0 0 false))) ∧
      (s.core.pseq < 2 ^ 17 → 32 ≤ s.core.outstanding → i.joined = true →
        exec ins s = .next (s.raise (i.info 0x12 9 (statusOpc 3 0xB0 0) 0 0 false)))
    gives (.pst hd o) .st false ∧ gives (.padd hd o sat) .add sat ∧ gives (.pmax hd o) .max false ∧
    gives (.pmin hd o) .min false ∧ gives (.pxor hd o) .xor false ∧ gives (.por hd o) .or false ∧ gives (.pand hd o) .and false

/-- With a valid handle that permits patches on a page that is not a peer's, PINV, PSQ and both forms of PSNAP send
one outstanding operation to the page's slice; so does PXPL, which takes the task's next name and carries the task's
start floor. With 32 outstanding the word issues all the same, and its operation sets out when it is taken up, for
which its cluster waits, in a free section. PDROP, PCOMM and PMRG send an operation that is not counted and leave
their cluster waiting for its answer, in a free section; in a joined one they raise SCHEDULE MISS cause 3. An
operation sets out at once and is not accepted before 24 core cycles have passed, by a slice on its own die, or 96, by
another. PNAME writes the next name on t + 1 and takes none. (R109, R231, R235, R245, R246, R251, R252, R253, R254,
R255, R256, R259) -/
def Obligations.PatchWordsComplete : Prop :=
  ∀ (hd : Head) (p h go na nb g : BitVec 5) (s : State),
    let name := makeName (s.core.readK 6) s.origin s.core.pseq
    let hdl := s.core.readH h
    let fresh := ∀ x ∈ s.opLog, x.1 ≠ (s.core.phase, s.core.phaseIdx)
    let least := if hdl.home.toNat = dieOf s.core.pcore.toNat then 24 else 96
    let sent := fun (ins : Instr) (opc : Nat) (kind : OpKind) (names : Nat) =>
      s.Issues hd opc .noShadow → s.patchHandleFault h false = none → (names = 1 → s.core.pseq < 2 ^ 17) →
      let i := Issue.of s hd opc
      (32 ≤ s.core.outstanding → i.joined = false) →
      ∃ t q, exec ins s = .next t ∧ t.core.ops = s.core.ops ++ [q] ∧ q.outstanding = true ∧ q.kind = kind ∧ q.h = hdl ∧
        (s.core.outstanding < 32 → (∃ x, q.state = .flying x (s.ctime + least) ∧ (fresh → s.trunk + least ≤ x)) ∧
          (t.core.cl i.c).wait = none) ∧
        (32 ≤ s.core.outstanding → q.state = .ready ∧ (t.core.cl i.c).wait = some (.slot q.id)) ∧ t.core.pseq = s.core.pseq + names ∧
        t.core.timeline = s.core.timeline ∧ s.SameContents t
    let asks := fun (ins : Instr) (opc : Nat) (kind : OpKind) =>
      let i := Issue.of s hd opc
      s.Issues hd opc .noShadow → s.patchHandleFault h false = none →
      (i.joined = false → ∃ t q, exec ins s = .next t ∧ t.core.ops = s.core.ops ++ [q] ∧ q.outstanding = false ∧ q.kind = kind ∧
        q.h = hdl ∧ (∃ x, q.state = .flying x (s.ctime + least) ∧ (fresh → s.trunk + least ≤ x)) ∧
        (t.core.cl i.c).wait = some (.answer q.id) ∧ (t.core.cl i.c).mode = .instrWait) ∧
      (i.joined = true → exec ins s = .next (s.raise (i.info 0x12 9 (3#8 ++ BitVec.ofNat 8 opc ++ 0#16) 0 0 false)))
    let gr := fun (opc : Nat) (n : BitVec 5) => s.readG (Issue.of s hd opc) n
    sent (.pinv hd h na) 0xB1 (.inv (gr 0xB1 na)) 0 ∧ sent (.psq hd h) 0xB5 .sq 0 ∧
    sent (.psnapOn hd h) 0xBA (.snap true) 0 ∧ sent (.psnapOff hd h) 0xBA (.snap false) 0 ∧
    sent (.pxpl hd h go na nb) 0xB4 (.xpl ((gr 0xB4 nb).extractLsb' 0 24) (gr 0xB4 na) (gr 0xB4 go).toNat name s.taskFloor) 1 ∧
    asks (.pdrop hd p h na) 0xB2 (.drop p (gr 0xB2 na)) ∧ asks (.pcomm hd p h na nb) 0xB3 (.comm p (gr 0xB3 na) (gr 0xB3 nb)) ∧
    asks (.pmrg hd p h na nb) 0xB6 (.mrg p (gr 0xB6 na) (gr 0xB6 nb)) ∧
    (s.Issues hd 0xB9 .noShadow →
      let i := Issue.of s hd 0xB9
      exec (.pname hd g) s = .next ((s.advance i).after i 1 (.wg i.c g name)))

/-- A record whose name the chain holds already is accepted without effect where the two have one digest, and refused
as REPLAY DIVERGENCE where they have not and it carries no replay mark. A new one whose name is at or below a fold
line of a granule it touches is refused as LATE PATCH with that line. One that conflicts with a record of the chain is
refused as PATCH CONFLICT with the lowest such name. Any other, on granules with fewer than 64 records and within the
tenant's quotas, is accepted and stands in the chain, which stays in rising order of names. (R236, R240, R241, R242,
R243, R250, R261, R357) -/
def Obligations.RecordAtSlice : Prop :=
  ∀ (s : State) (tenant : BitVec 4) (die : Nat) (replay : Bool) (q p : PatchRec) (t : Tensor) (line : Word) (n : Nat) (nm : Word),
    s.tensorOf tenant q.tid = some t →
    let absent := ∀ r ∈ t.chain, r.name ≠ q.name
    ((t.chain.find? fun r => r.name = q.name) = some p →
      (p.digest = q.digest → s.arriveRecord tenant die replay q = .answer s .accepted) ∧
      (p.digest ≠ q.digest → replay = false → s.arriveRecord tenant die replay q = .answer s (.refused 0x55 1 q.name 0))) ∧
    (absent → t.late q = some line → s.arriveRecord tenant die replay q = .answer s (.refused 0x52 1 q.name line)) ∧
    (absent → t.late q = none → t.conflict q = some (n, nm) →
      s.arriveRecord tenant die replay q = .answer s (.refused 0x50 n q.name nm)) ∧
    (absent → t.late q = none → t.conflict q = none → (∀ g ∈ t.granulesOf q, (t.chainAt g).length < 64) →
      s.overQuota tenant die q = 0 →
      s.arriveRecord tenant die replay q = .answer (s.setTensor { t with chain := insertRec q t.chain }) .accepted ∧
      (∀ r, r ∈ insertRec q t.chain ↔ r = q ∨ r ∈ t.chain) ∧
      (t.chain.Pairwise (fun a b => a.name.toNat < b.name.toNat) →
        (insertRec q t.chain).Pairwise (fun a b => a.name.toNat < b.name.toNat)))

/-- A releasing word (PPUB, FENCE with release, BARA) whose condition holds at issue, namely no operation outstanding,
no refusal still to be taken, the delay of its scope past the last answer, and no peer at pod scope, makes its release
on that cycle: its set holds the task's own earlier patches, what it has observed, and the originals of the inverses
among them, and its cluster goes on. Otherwise, in a free section, its cluster waits for the new release. FENCE
acquire observes every earlier release that its scope and the release's cover, and FENCE with both does so too, on the
cycle on which its own release is made; only a pod-scope release that a replay makes again may complete with peers in
the partition. PWAIT with nothing outstanding is done, and waits otherwise. BARA adds one increment, which stands 40
trunk cycles later. BARW waits from t + 40 on. (R257, R258, R263, R266, R267, R272, R345) -/
def Obligations.ReleaseWordsComplete : Prop :=
  ∀ (hd : Head) (sc : BitVec 3) (b : BitVec 4) (g : BitVec 5) (v : FVal) (s : State),
    let i := fun (opc : Nat) => Issue.of s hd opc
    let idle := s.core.freeze = [] ∧ (∀ o ∈ s.core.ops, o.outstanding = false) ∧ s.core.refusalDue = false ∧
      (∀ a, s.core.lastAnswer = some a → a + (if sc.toNat ≤ 1 then 0 else if sc.toNat ≤ 3 then 8 else 32) ≤ s.ctime) ∧
      (sc.toNat = 5 → s.peers = [])
    let fresh := ∀ x ∈ s.log, x.1.1 = s.core.phase → x.1.2 < s.core.phaseIdx
    let inSet := fun (x : PName) =>
      (∃ m ∈ s.core.mine, m.1 = x ∧ m.2 < s.trunk) ∨ x ∈ s.core.observed
    let publishes := fun (t : State) (set : List PName) =>
      t.relHist = s.relHist ++ [⟨s.trunk, s.core.pcore.toNat, sc, set, none⟩] ∧
      ∀ x, x ∈ set ↔ inSet x ∨ ∃ y, inSet y ∧ y.2.getLsbD 0 = true ∧ x = (y.1, y.2 &&& ~~~1#64)
    let goes := fun (t : State) (opc : Nat) => (t.core.cl (i opc).c).mode = .running ∧ (t.core.cl (i opc).c).wait = none
    let releases := fun (ins : Instr) (opc : Nat) =>
      (idle → ∃ t set, exec ins s = .next t ∧ (fresh → publishes t set) ∧ goes t opc ∧ s.core.SameRegisters t.core ∧ s.SameMemory t) ∧
      (¬idle → (sc.toNat = 5 → fresh) → ∃ t r, exec ins s = .next t ∧ t.core.releases = s.core.releases ++ [r] ∧ r.scope = sc ∧
        (t.core.cl (i opc).c).wait = some (.release r.id) ∧ t.relHist = s.relHist)
    (s.Issues hd 0xB7 .noShadow → (i 0xB7).joined = false → releases (.ppub hd sc) 0xB7) ∧
    (s.Issues hd 0xB7 .noShadow → (i 0xB7).joined = true → (idle → ∃ t set, exec (.ppub hd sc) s = .next t ∧ (fresh → publishes t set)) ∧
      (¬idle → (sc.toNat = 5 → fresh) → exec (.ppub hd sc) s = .next (s.raise ((i 0xB7).info 0x12 9 (statusOpc 3 0xB7 0) 0 0 false)))) ∧
    (let acquires := fun (t : State) => ∀ x, x ∈ t.core.observed ↔ x ∈ s.core.observed ∨ ∃ r ∈ s.relHist, r.at_ < s.trunk ∧
        s.covers sc s.core.pcore.toNat r.core = true ∧ s.covers r.scope r.core s.core.pcore.toNat = true ∧ x ∈ r.set
     s.Issues hd 0xC0 .noShadow → s.holdsFlags = true →
      ((i 0xC0).joined = false → releases (.fenceRel hd sc) 0xC0 ∧ releases (.fenceAcqrel hd sc) 0xC0 ∧
        (idle → ∃ t, exec (.fenceAcqrel hd sc) s = .next t ∧ acquires t)) ∧
      ∃ t, exec (.fenceAcq hd sc) s = .next t ∧ t.core.timeline = s.core.timeline ∧ s.SameContents t ∧ acquires t) ∧
    (s.Issues hd 0xB8 .noShadow →
      ((∀ o ∈ s.core.ops, o.outstanding = false) →
        ∃ t, exec (.pwait hd) s = .next t ∧ t.core = (s.advance (i 0xB8)).core) ∧
      ((∃ o ∈ s.core.ops, o.outstanding = true) → (i 0xB8).joined = false →
        ∃ t ids, exec (.pwait hd) s = .next t ∧ (t.core.cl (i 0xB8).c).wait = some (.pwait ids) ∧
          ids = (s.core.ops.filter (·.outstanding)).map (·.id))) ∧
    (s.Issues hd 0xC5 .noShadow → (i 0xC5).joined = false → releases (.bara hd b sc) 0xC5 ∧
      (idle → fresh → ∃ t set, exec (.bara hd b sc) s = .next t ∧ publishes t set ∧
        t.launches = s.launches.map fun l => if s.contextLaunch = some l.id then
          { l with barriers := l.barriers ++ [⟨b, s.trunk + 40, s.core.pcore.toNat, sc, set⟩] } else l)) ∧
    (s.Issues hd 0xC6 .noShadow → (i 0xC6).joined = false →
      ∃ t key, exec (.barw hd g b v sc) s = .next t ∧ key = (s.core.phase, s.core.phaseIdx) ∧
        (t.core.cl (i 0xC6).c).wait = some (.barw g b (s.readFVal (i 0xC6) v) sc (s.ctime + 40) key) ∧
        t.core.timeline = s.core.timeline)

/-- With the launch holding its gang's flag file, a flag word makes its access on t + 4, in the next place of its
phase; with acquire its cluster waits until then, and with release, in a free section, a release whose condition holds
is made on t, its set joins the history of releases, the access comes on t + 4 and carries that set, and the cluster
waits for it; a release whose condition does not hold yet is left for the cluster to wait for. FWAIT makes its first
access on t + 4 and its cluster waits for the value. FGET in the shadow context makes its access 4 trunk cycles on
(before the core's other accesses of that cycle, by the model's choice, log entry 86), and its register is written
with the flag's value 4 trunk cycles later. An access stores (FSET) or adds modulo 2^32 (FADD), and FADD and FGET
write the old value 4 cycles later; no other flag changes. An access with acquire takes up the sets that earlier
releasing accesses to the flag carried. Without the flag file a flag word, FWAIT and FENCE among them, raises FLAG;
that it does so in a joined section too, where a word whose condition never holds raises SCHEDULE MISS, is the model's
choice (log entry 57). (R266, R267, R268, R269, R270, R271, R272, R273, R274) -/
def Obligations.FlagWordsComplete : Prop :=
  ∀ (hd : Head) (g : BitVec 5) (f f2 : BitVec 8) (v : FVal) (o : FOrd) (c : Cluster) (op : FlagOp) (s : State),
    let key := (s.core.phase, s.core.phaseIdx)
    let acq := o.ord.getLsbD 0
    let rel := o.ord.getLsbD 1
    let idle := s.core.freeze = [] ∧ (∀ x ∈ s.core.ops, x.outstanding = false) ∧ s.core.refusalDue = false ∧
      (∀ a, s.core.lastAnswer = some a → a + (if o.scope.toNat ≤ 1 then 0 else if o.scope.toNat ≤ 3 then 8 else 32) ≤ s.ctime) ∧
      (o.scope.toNat = 5 → s.peers = [])
    let fresh := ∀ x ∈ s.log, x.1.1 = s.core.phase → x.1.2 < s.core.phaseIdx
    let inSet := fun (x : PName) => (∃ m ∈ s.core.mine, m.1 = x ∧ m.2 < s.trunk) ∨ x ∈ s.core.observed
    let inRelease := fun (x : PName) =>
      inSet x ∨ ∃ y, inSet y ∧ y.2.getLsbD 0 = true ∧ x = (y.1, y.2 &&& ~~~1#64)
    let noFile := fun (ins : Instr) (opc : Nat) (name : BitVec 8) => exec ins s =
      .next (s.raise ((Issue.of s hd opc).info 0x70 13 (1#8 ++ BitVec.ofNat 8 opc ++ 0#8 ++ name) 0 0 false))
    let access := fun (ins : Instr) (opc : Nat) (wh : Where) (kind : Nat) (gd : BitVec 5) (val : BitVec 32) =>
      let i := Issue.of s hd opc
      let act := fun (set : Option (List PName)) => Act.flag i.c ⟨kind, key, f, val, gd, acq, o.scope, set⟩
      s.Issues hd opc wh → s.core.shadow.active = false →
      (s.holdsFlags = true → rel = false → (acq = true → i.joined = false) → ∃ t, exec ins s = .next t ∧
        s.Adds t [(s.ctime + 4, act none)] ∧ s.SameContents t ∧
        (t.core.cl i.c).wait = (if acq then some (.access (s.ctime + 4)) else none)) ∧
      (s.holdsFlags = true → rel = true → i.joined = false →
        (idle → ∃ t set, exec ins s = .next t ∧ (∀ x, x ∈ set ↔ inRelease x) ∧
          (fresh → t.relHist = s.relHist ++ [⟨s.trunk, s.core.pcore.toNat, o.scope, set, none⟩]) ∧
          s.Adds t [(s.ctime + 4, act (some set))] ∧ (t.core.cl i.c).wait = some (.access (s.ctime + 4)) ∧
          s.core.SameRegisters t.core ∧ s.SameMemory t) ∧
        (¬idle → (o.scope.toNat = 5 → fresh) → ∃ t r, exec ins s = .next t ∧ t.core.releases = s.core.releases ++ [r] ∧ r.scope = o.scope ∧
          r.issued = s.trunk ∧ r.act = .flag ⟨kind, key, f, val, gd, acq, o.scope, none⟩ ∧
          (t.core.cl i.c).wait = some (.release r.id) ∧ t.relHist = s.relHist ∧ t.core.timeline = s.core.timeline)) ∧
      (s.holdsFlags = true → o.ord ≠ 0 → i.joined = true →
        exec ins s = .next (s.raise (i.info 0x12 9 (statusOpc 3 opc 0) 0 0 false))) ∧
      (s.holdsFlags = false → noFile ins opc f)
    access (.fset hd f v o) 0xC1 .noShadow 0 0 (s.readFVal (Issue.of s hd 0xC1) v) ∧
    access (.fadd hd g f v o) 0xC2 .noShadow 1 g (s.readFVal (Issue.of s hd 0xC2) v) ∧
    access (.fget hd g f o) 0xC4 .both 2 g 0 ∧
    (s.Issues hd 0xC3 .noShadow → s.holdsFlags = true →
      let i := Issue.of s hd 0xC3
      (i.joined = false → ∃ t, exec (.fwait hd g f v o) s = .next t ∧ t.core.timeline = s.core.timeline ∧
        (t.core.cl i.c).wait = some (.fwait ⟨3, key, f, s.readFVal i v, g, acq, o.scope, none⟩ (s.ctime + 4))) ∧
      (i.joined = true → exec (.fwait hd g f v o) s = .next (s.raise (i.info 0x12 9 (statusOpc 3 0xC3 0) 0 0 false)))) ∧
    (s.Issues hd 0xC3 .noShadow → s.holdsFlags = false → noFile (.fwait hd g f v o) 0xC3 f) ∧
    (s.Issues hd 0xC0 .noShadow → s.holdsFlags = false →
      noFile (.fenceAcq hd o.scope) 0xC0 0 ∧ noFile (.fenceRel hd o.scope) 0xC0 0 ∧ noFile (.fenceAcqrel hd o.scope) 0xC0 0) ∧
    (s.Issues hd 0xC4 .both → s.core.shadow.active = true →
      let i := Issue.of s hd 0xC4
      (o.ord = 0 → s.holdsFlags = true → exec (.fget hd g f o) s = .next ((s.advance i).writeAfter i 4 (.shadowFlag g f))) ∧
      (o.ord = 0 → s.holdsFlags = false → noFile (.fget hd g f o) 0xC4 f) ∧
      (o.ord ≠ 0 → exec (.fget hd g f o) s = .next (s.raise (illegalHere i 0)))) ∧
    (∀ x n, (x, Act.shadowFlag g f) ∈ s.core.shadow.pend → x ≤ n →
      (n + 4, Act.wg .S g (0#32 ++ s.flagAt f)) ∈ (s.shadowFlags n).core.shadow.pend) ∧
    ((∀ x ∈ s.log, x.1 ≠ op.key) →
      let t := s.flagAct c op
      (∀ x, x ∈ t.core.observed ↔ x ∈ s.core.observed ∨ (op.acq = true ∧ ∃ w ∈ s.flagHist, w.flag = op.f ∧
        s.covers w.scope w.core s.core.pcore.toNat = true ∧ x ∈ w.set)) ∧
      t.flagHist = s.flagHist ++ (match op.rel with | some set => [⟨op.f, s.core.pcore.toNat, op.scope, set⟩] | none => []) ∧
      (op.kind = 0 → t.flagAt op.f = op.v ∧ t.core.timeline = s.core.timeline) ∧
      (op.kind = 1 → t.flagAt op.f = s.flagAt op.f + op.v) ∧
      (op.kind = 2 → t.flagAt op.f = s.flagAt op.f) ∧
      (op.kind = 1 ∨ op.kind = 2 → s.Adds t [(s.ctime + 4, .wg c op.g (0#32 ++ s.flagAt op.f))]) ∧
      (f2 ≠ op.f → t.flagAt f2 = s.flagAt f2))

/-- TASKEND in S with L, M and W parked and nothing in flight makes its pod-scope release, which comes no sooner than
600 trunk cycles later, and S waits for it. SWAP without an alternate plane writes 0 on t + 1; with one that is
loaded, and nothing in flight, the planes flip, every cluster starts again, L, M and W no sooner than t + 1, and g[D]
receives 1 on t + 1; what the new plane writes finds that its old contents fit the rollback area. KICK takes the next
kick name, writes it on t + 1, reads its record on t + 1 to t + 16 and waits for the answer. KWAIT of a child whose
tasks have all retired makes a pod-scope acquire, which takes up the last releases of these tasks too, on whatever
cycle they retired, and goes on; SWAP and KWAIT do so where no cancelled run of the same word has waited; of a name
that no child has it raises CHILD POOL reason 6. CHKERR with nothing in flight writes CIR on t + 2 and, with its flag,
clears the write-one-to-clear bits that it read on t + 1. Where the condition does not hold, the word waits, in a free
section. (R336, R339, R340, R342, R343, R364, R373) -/
def Obligations.SchedulerWordsComplete : Prop :=
  ∀ (hd : Head) (g : BitVec 5) (a : BitVec 4) (crit clr : Bool) (l : Launch) (n : Nest) (s : State),
    let i := fun (opc : Nat) => Issue.of s hd opc
    let waits := fun (ins : Instr) (opc : Nat) (w : Wait) =>
      ∃ t, exec ins s = .next t ∧ (t.core.cl (i opc).c).wait = some w ∧ t.core.timeline = s.core.timeline
    (s.IssuesFree hd 0xCA → (i 0xCA).c = .S →
      (s.core.taskDone s.ctime = true → ∃ t r, exec (.taskend hd) s = .next t ∧ t.core.releases = s.core.releases ++ [r] ∧
        r.scope = 5 ∧ r.act = .taskend ∧ r.notBefore = s.trunk + 600 ∧ t.core.s.wait = some (.taskendRelease r.id) ∧
        ∀ x ∈ t.snaps, x.ended.isSome = true) ∧
      (s.core.taskDone s.ctime = false → waits (.taskend hd) 0xCA .taskend)) ∧
    (s.IssuesFree hd 0xC9 → (i 0xC9).c = .S →
      (s.hasAlt = false → exec (.swap hd g) s = .next ((s.advance (i 0xC9)).after (i 0xC9) 1 (.wg .S g 0))) ∧
      (s.hasAlt = true → (s.advance (i 0xC9)).waitKept .swap = none → s.core.taskDone s.ctime = true → s.shadowLoaded = true → s.Fits (planeUnits s.shadowImage) →
        ∃ t, exec (.swap hd g) s = .next t ∧ t.core.plane = !s.core.plane ∧ s.Adds t [(s.ctime + 1, .wg .S g 1)] ∧
          ∀ c, (t.core.cl c).wait = none ∧ (t.core.cl c).steer = none ∧ (t.core.cl c).any = false ∧ (t.core.cl c).lret = 0 ∧
            ((t.core.cl c).mode = .entryWait ∨ (t.core.cl c).mode = .parked) ∧ (c ≠ .S → 1 ≤ (t.core.cl c).idleRem)) ∧
      (s.hasAlt = true → (s.core.taskDone s.ctime = false ∨ s.shadowLoaded = false) → waits (.swap hd g) 0xC9 (.swap g))) ∧
    (s.Issues hd 0xC7 .noShadow → (i 0xC7).joined = false →
      let addr := (s.readA (i 0xC7) a).toNat
      let name := makeName (s.core.readK 6) s.origin s.core.kseq
      let plan := kickPlan s.ctime addr
      boundsOf plan = none →
      (s.core.kseq < 2 ^ 17 → s.Passes (i 0xC7) 3 plan → ∃ t k, exec (.kick hd g a crit) s = .next t ∧
        t.core.kick = some k ∧ k.name = name ∧ k.crit = crit ∧ k.g = g ∧ t.core.kseq = s.core.kseq + 1 ∧
        (t.core.cl (i 0xC7).c).wait = some (.kick k.id) ∧
        s.Adds t ((s.ctime + 1, .wg (i 0xC7).c g name) :: (List.range 16).map fun m => (s.ctime + 1 + m, .kickRead k.id m))) ∧
      (2 ^ 17 ≤ s.core.kseq →
        exec (.kick hd g a crit) s = .next (s.raise ((i 0xC7).info 0x71 14 (statusOpc 8 0xC7 0) 0 0 false)))) ∧
    (s.Issues hd 0xC8 .noShadow → (i 0xC8).joined = false → (s.advance (i 0xC8)).waitKept .kwait = none → s.crownDown = false → s.ownLaunch = some l →
      let name := s.readG (i 0xC8) g
      let child := l.nests.find? fun x => x.child = some name
      (child = some n → l.nestRetired n = true →
        ∃ t, exec (.kwait hd g) s = .next t ∧ t.core = { (s.advance (i 0xC8)).core with observed := t.core.observed } ∧
          ∀ x, x ∈ t.core.observed ↔ x ∈ s.core.observed ∨ ∃ r ∈ s.relHist,
            (r.at_ < s.trunk ∨ (r.at_ = s.trunk ∧ ∃ ix, r.task = some (l.id, ix) ∧ n.ixbase ≤ ix ∧ ix < n.ixbase + n.span)) ∧
            s.covers 5 s.core.pcore.toNat r.core = true ∧ s.covers r.scope r.core s.core.pcore.toNat = true ∧ x ∈ r.set) ∧
      (child = some n → l.nestRetired n = false → s.waitsForever l n = false → waits (.kwait hd g) 0xC8 (.kwait name)) ∧
      (child = none → exec (.kwait hd g) s = .next (s.raise ((i 0xC8).info 0x71 14 (statusOpc 6 0xC8 0) name 0 false)))) ∧
    (s.Issues hd 0xE0 .noShadow →
      (s.core.drained s.ctime = true → ∃ t, exec (.chkerr hd g clr) s = .next t ∧ s.SameContents t ∧
        s.Adds t ((s.ctime + 2, .wg .S g s.core.cir) ::
          if clr then [(s.ctime + 1, .chkclr (s.core.cir &&& 0x0000FFFF0000E1FE#64))] else [])) ∧
      (s.core.drained s.ctime = false → (i 0xE0).joined = false → waits (.chkerr hd g clr) 0xE0 (.chkerr g clr)))

/-- IDLE_EXPIRY decodes the cluster's next word on the cycle on which it is to issue, and makes it ready, or raises
its decode fault; in the shadow context likewise. WAIT_CONDITION_MET of a WAITT whose time has come lets the cluster
go on no earlier than the next cycle. SECTION_FALL_THROUGH parks, steers or walks the cluster out of its section,
which enters the next one at word 0; a steer to a section that does not exist raises BRANCH TARGET status 1 at the
word index at which the cluster stands, and a parked cluster that is steered to park only loses the steer, both by the
model's reading (log entry 72). ENTRY_WAIT_MET lets a free section run and a joined one wait for its quartet.
JOINED_QUARTET_START starts all four members. QUIET_POINT with no event pending ends a QUIET and the holding of the
other clusters; a pending debugger halt freezes the core, at a HALT too, and YIELD's interrupt is taken at its quiet
point. ASYNC_EVENT_ARRIVAL makes an event pending from the next trunk cycle on. (R72, R81, R109, R114, R115, R118,
R125, R126, R128, R129, R130, R131) -/
def Obligations.ClusterEventsComplete : Prop :=
  ∀ (c : Cluster) (e : AsyncEvent) (s : State),
    let k := s.core.cl c
    let p := s.activePlane
    let plain_ := s.core.shadow.active = false
    let becomes := fun (ins : Instr) (x : ClusterSt) => ∃ t, exec ins s = .next t ∧ t.core.cl c = x ∧ s.SameContents t
    let enters := fun (ins : Instr) (off : Nat) (h : Header) => ∃ t, exec ins s = .next t ∧ s.SameContents t ∧
      (t.core.cl c).sec = h.secno ∧ (t.core.cl c).hdr = off ∧ (t.core.cl c).word = 0 ∧ (t.core.cl c).mode = .entryWait ∧
      (t.core.cl c).steer = none
    (plain_ → s.checkFault c = none → (c = .S → s.idleMismatch = none) →
      (∀ i, decodeFor c (s.fetch c) = .ok i →
        exec (.idleExpiry c) s = .next { s with core := { s.core with issuing := some c } }) ∧
      (∀ f, decodeFor c (s.fetch c) = .error f → exec (.idleExpiry c) s = .next (s.raise (decodeInfo f ⟨c, k.sec, k.word⟩)))) ∧
    (∀ i, s.core.shadow.active = true → s.core.shadow.unchecked = false → decodeFor .S s.fetchShadow = .ok i →
      ∃ t, exec (.idleExpiry c) s = .next t ∧ t.core.issuing = some .S ∧ s.SameContents t) ∧
    (∀ x, k.wait = some (.untilTime x) → x ≤ s.ctime + 1 →
      becomes (.waitConditionMet c) { k with mode := .running, wait := none, idleRem := max k.idleRem 1, woke := k.idleRem = 0 }) ∧
    (plain_ → s.steerSeen c = some .park → k.mode ≠ .parked →
      becomes (.sectionFallThrough c) { k with mode := .parked, steer := none, lret := k.sec, any := true }) ∧
    (plain_ → s.steerSeen c = some .park → k.mode = .parked → becomes (.sectionFallThrough c) { k with steer := none }) ∧
    (∀ n off h, plain_ → s.steerSeen c = some (.sec n) → findSection p c n = some (off, h) →
      enters (.sectionFallThrough c) off h) ∧
    (∀ n, plain_ → s.steerSeen c = some (.sec n) → findSection p c n = none →
      exec (.sectionFallThrough c) s = .next (s.raise ⟨0x05, .precise, 9, ⟨c, k.sec, k.word⟩, false, 1, 0, 0, none⟩)) ∧
    (∀ off h, plain_ → k.steer = none → k.mode ≠ .parked → walkAfter p c k.hdr = .found off h →
      enters (.sectionFallThrough c) off h) ∧
    (s.entryReason c = 0 → s.core.waitsMet c (s.header c) = true → ∃ t, exec (.entryWaitMet c) s = .next t ∧ s.SameContents t ∧
      (t.core.cl c).mode = (if (s.header c).sync then .quartetWait else .running) ∧ (t.core.cl c).word = k.word) ∧
    ((∀ d, (s.core.cl d).mode = .quartetWait ∧ (s.core.cl d).sec = k.sec ∧ (s.header d).len = (s.header c).len) →
      ∃ t, exec .joinedQuartetStart s = .next t ∧ s.SameContents t ∧
        ∀ d, t.core.cl d = { s.core.cl d with mode := .running }) ∧
    (s.core.s.wait = some (.quiet false) → s.core.s.mode = .instrWait → s.core.cursor ≤ 1 → s.core.writePending s.ctime = false →
      (s.events = [] → ∃ t, exec .quietPoint s = .next t ∧ t.core.s.mode = .running ∧ t.core.s.wait = none ∧
        t.core.holdOthers = false ∧ s.SameContents t) ∧
      (.debugHalt ∈ s.events → ∃ t, exec .quietPoint s = .next t ∧ t.core.freeze = .debug :: s.core.freeze ∧
        t.core.s.wait = some (.quiet false) ∧ s.SameContents t)) ∧
    (s.core.s.wait = some (.quiet true) → s.core.s.mode = .instrWait → s.core.cursor ≤ 1 → s.core.writePending s.ctime = false →
      s.core.pending = [] → s.core.stepRem = none → ∃ t, exec .quietPoint s = .next t ∧
        t.core.freeze = .event .interrupt :: s.core.freeze ∧ t.core.s.wait = some (.quiet false) ∧ s.SameContents t) ∧
    (s.core.s.mode = .halted → s.waitKept .halt = none → s.core.cursor ≤ 1 → s.core.writePending s.ctime = false →
      .debugHalt ∈ s.events → ∃ t, exec .quietPoint s = .next t ∧ t.core.freeze = .debug :: s.core.freeze ∧
        t.core.s.mode = .instrWait ∧ t.core.s.wait = some (.quiet false) ∧ s.SameContents t) ∧
    ((∀ x ∈ s.core.pending, x.1 ≠ e) →
      exec (.asyncEventArrival e) s =
        .next { s with core := { s.core with pending := s.core.pending ++ [(e, s.trunk + 1)] } })

/-- FAULT_QUEUE_COPY takes the oldest record out of the die's fault buffer and puts it into the fault queue of its
tenant, once that is open. CORE_RESUME ends the freeze of a plane reload. DEBUG_RESUME and DEBUG_STEP end the freeze
view, a step for as many core cycles as it names; DEBUG_STEP_EXPIRY freezes the core again. DEBUG_WRITE_STATE writes a
register of the frozen context, of the shadow context too, or a byte of local store that is not locked, and no other
byte. (R353, R355, R356, R362, R363, R368, R387) -/
def Obligations.FaultAndDebugEventsComplete : Prop :=
  ∀ (n : BitVec 16) (y : BitVec 4) (kn : BitVec 3) (m : BitVec 5) (bp : Bool) (v : Word) (a x : Nat) (b : Byte) (r : FRec) (rs : List FRec) (s : State),
    let view := s.core.freeze.contains .debug = true
    let rest := s.core.freeze.filter (· ≠ Freeze.debug)
    let tenant : BitVec 4 := r.w1.extractLsb' 48 4
    let writes := fun (w : DebugWrite) (c : Core) => exec (.debugWriteState w) s = .next { s with core := c }
    (s.faultBuf = r :: rs → (∃ t ∈ s.tenants, t.id = tenant ∧ t.created = true) → s.hacc = true → s.core.heldRec = none →
      s.infoDropped = 0 →
      ∃ t, exec .faultQueueCopy s = .next t ∧ t.faultBuf = rs ∧ t.core = s.core ∧
        t.tenants = s.tenants.map fun q => if q.id = tenant then { q with faults := r :: q.faults } else q) ∧
    (.reload ∈ s.core.freeze → exec .coreResume s =
      .next { s with core := { s.core with freeze := s.core.freeze.erase .reload } }) ∧
    (view → s.core.faultQ = [] →
      exec .debugResume s = .next { s with core := { s.core with freeze := rest, handling := none, stepRem := none } } ∧
      (n ≠ 0 → exec (.debugStep n) s =
        .next { s with core := { s.core with freeze := rest, handling := none, stepRem := some n.toNat } })) ∧
    (s.core.stepRem = some 0 → exec .debugStepExpiry s =
      .next { s with core := { s.core with stepRem := none, freeze := .debug :: s.core.freeze } }) ∧
    (view → writes (.y y v) (s.core.writeY y v) ∧ writes (.k kn v) (s.core.writeK kn v) ∧
      writes (.shadowG m v) { s.core with shadow := s.core.shadow.writeG m v } ∧
      writes (.shadowP m bp) { s.core with shadow := s.core.shadow.writeP m bp } ∧
      (s.core.MemoryForm → a < 4194304 → a / 64 ∉ s.core.lockedLines → ∃ t, exec (.debugWriteState (.ls a b)) s = .next t ∧
        t.core.ls.get a = b ∧ (x ≠ a → t.core.ls.get x = s.core.ls.get x)) ∧
      (a / 64 ∈ s.core.lockedLines → exec (.debugWriteState (.ls a b)) s = .next s))

/-- COPY_COMMAND_START starts the command that is first in turn, on this cycle. COPY_IN_COMPLETION stores the 64 bytes
of each line of its command (lines stored to once each, of whole granules) and no other byte, gives the filled regions
the command's tag, and ends the command. DRAWER_UNIT_ARRIVAL lands the unit of a group that is up. LINK_GROUP_RETRAIN
takes the group out; LINK_RETRAIN_COMPLETE brings it back and leaves none of its units stalled; LINK_GROUP_DOWN leaves
none stalled either, sets the poison bit of the copy engine if there were any, takes the group's read slots away, and
leaves the folds on their way to it undone and every patch in its chain. PREFETCH_DONE ends its operation and makes
its token DONE. (R179, R209, R212, R213, R218, R219, R222, R223, R365, R375) -/
def Obligations.CopyAndLinkEventsComplete : Prop :=
  ∀ (q : CopyCmd) (u : DrawerUnit) (g : BitVec 4) (tok : BitVec 4) (o : PfOp) (s : State),
    (s.core.copyStarts s.ctime = some q → ∃ t, exec .copyCommandStart s = .next t ∧ s.SameContents t ∧
      ∃ x ∈ t.core.copyQ, x.id = q.id ∧ x.start = some s.ctime ∧ x.lines = q.lines ∧ x.h = q.h) ∧
    ((s.core.copyQ.find? fun x => x.id = q.id && !x.done && x.complete.isSome) = some q → (q.lines.map (·.1)).Nodup →
      s.core.MemoryForm → (∀ l ∈ q.lines, (q.lineOf l.2).1.length = 64) →
      ∃ t, exec (.copyInCompletion q.id) s = .next t ∧ s.core.SameRegisters t.core ∧
        (∀ l ∈ q.lines, ∀ j < 64, t.core.ls.get (64 * l.1 + j) = (q.lineOf l.2).1.getD j 0) ∧
        (∀ x, (∀ l ∈ q.lines, x / 64 ≠ l.1) → t.core.ls.get x = s.core.ls.get x) ∧
        (∀ m, m ≠ .ls → t.core.mem m = s.core.mem m) ∧
        t.core.regions = (s.core.regions.map fun r => r.map fun r => r.fill q) ∧
        (∀ x ∈ t.core.copyQ, x.id = q.id → x.done = true)) ∧
    ((s.core.copyQ.find? fun x => x.id = q.id) = some q →
      (q.units.find? fun x => x.index = u.index && !x.arrived && !x.stalled && !x.lost) = some u →
      u.group ∉ s.asOf.groupsDown → u.group ∉ s.retraining →
      exec (.drawerUnitArrival q.id u.index) s = .next { s with core := s.core.setCopy (q.setUnit { u with arrived := true }) }) ∧
    (g.toNat ∉ s.retraining → g.toNat ∉ s.groupsDown →
      exec (.linkGroupRetrain g) s = .next { s with retraining := g.toNat :: s.retraining }) ∧
    (∃ t, exec (.linkRetrainComplete g) s = .next t ∧ g.toNat ∉ t.retraining ∧ s.SameContents t ∧
      ∀ x ∈ t.core.copyQ, ∀ w ∈ x.units, w.group = g.toNat → w.stalled = false) ∧
    (∃ t, exec (.linkGroupDown g) s = .next t ∧ g.toNat ∈ t.groupsDown ∧ s.core.SameRegisters t.core ∧ s.SameMemory t ∧
      (∀ x ∈ t.slots, x.1 = g.toNat → (x.2.2.extractLsb' 30 2 : BitVec 2) ≠ 1) ∧
      (∀ w ∈ t.slotWrites, w.block % 16 ≠ g.toNat) ∧ t.tensors = s.tensors ∧
      (∀ x ∈ t.core.copyQ, ∀ w ∈ x.units, w.group = g.toNat → w.stalled = false) ∧
      ((∃ x ∈ s.core.copyQ, ∃ w ∈ x.units, w.stalled = true ∧ w.group = g.toNat) → t.core.cir.getLsbD 8 = true)) ∧
    ((s.pfops.find? fun x => x.tok = tok && s.pfReady x) = some o → s.core.token tok = .busy o.id →
      ∃ t n, exec (.prefetchDone tok) s = .next t ∧ t.pfops = s.pfops.erase o ∧ t.core.token tok = .done n ∧
        s.core.SameRegisters t.core ∧ (∀ m, t.core.mem m = s.core.mem m) ∧
        ((∀ x ∈ s.log, x.1 ≠ o.key) → o.kind = .discard → n = o.units))

/-- PATCH_ARRIVAL and PATCH_REOFFER put the operation to its slice: the state is what the slice makes of it, but for
what is kept for a replay, and the answer, or the reason for which the slice holds it, stands with the operation,
whose core takes the stall once. A peer's held patch is offered again likewise. PATCH_ANSWER ends the operation: an
accepted one adds its names to the task's own patches, a refusal raises its fault, deferred, after the words of the
cycle, and an enquiry's predicate is written on the next cycle and its cluster goes on. A packet over a link that is
down, from a source that is closed, or that its context refuses changes nothing. One that passes: SEAL_LINE_UPDATE
keeps a peer's seal line and puts the retire serials that come with it on the origin's records, POD_RELEASE_ACK counts
for its release, and OPERATION_PACKET_ARRIVAL leaves what its slice makes of its record on a REMOTE tensor, or
publishes a peer's release and acknowledges it. SOURCE_CLOSE_EXPIRY opens the source again at its station alone. That
a refusal's engine is 7 is the model's choice (log entry 14), and so is what a packet carries beside the operation and
which core a peer's record names (log entry 37). (R235, R236, R238, R241, R244, R246, R247, R252, R267, R382, R384,
R386) -/
def Obligations.SliceEventsComplete : Prop :=
  ∀ (o : PatchOp) (a : Answer) (code reason : Nat) (x0 x1 : Word) (tenant : BitVec 4) (dev : BitVec 10) (n m : Nat) (h : PacketHead) (b : PacketBody)
    (p : PeerPatch) (r : SealReport) (set : List PName) (st : BitVec 4) (t : Tensor)
    (hold : OpState) (pr : BitVec 5) (yes : Bool) (s u : State),
    let station := s.stations[h.station.toNat]'(by omega)
    let passes := station.up = true ∧ h.source ∉ station.closed ∧ h.wellFormed = true ∧ s.packetReason h = 0
    let shut := station.up = false ∨ h.source ∈ station.closed ∨ (h.wellFormed = true ∧ s.packetReason h ≠ 0)
    let answered : PatchOp := { o with state := .answered a }
    let moved := fun (ops : List PatchOp) =>
      if ops.any (·.id = o.id) then ops.filter (·.id ≠ o.id) ++ [answered] else ops
    let puts := fun (ins : Instr) =>
      (s.slice o = .answer u a → ∃ v, exec ins s = .next v ∧ (o ∈ s.core.ops → answered ∈ v.core.ops) ∧
        v.tensors = u.tensors ∧ v.gmem = u.gmem ∧ u.core.SameRegisters v.core ∧
        v = { u with core := { u.core with ops := moved u.core.ops }
                     saved := u.saved.map fun x => { x with core := { x.core with ops := moved x.core.ops } }
                     madeLog := v.madeLog, sliceLog := v.sliceLog, past := v.past }) ∧
      (s.slice o = .hold u hold x1 → ∃ v, exec ins s = .next v ∧ v.tensors = u.tensors ∧ v.gmem = u.gmem ∧
        u.core.SameRegisters v.core ∧ u.SameMemory v ∧
        (o ∈ s.core.ops → (∃ x ∈ v.core.ops, x.id = o.id) ∧
          ∀ f, holdStall o hold x1 = some f → f.code ∉ o.stalled → (∀ y ∈ s.stallLog, y.key ≠ o.key) → f ∈ v.core.faultQ) ∧
        (∀ x ∈ v.core.ops, x.id = o.id → x.state = hold ∧ x.kind = o.kind ∧ x.h = o.h) ∧
        ∀ x ∈ u.core.ops, x.id ≠ o.id → x ∈ v.core.ops)
    ((s.allOps.find? fun x => x.id = o.id && s.landed x) = some o → puts (.patchArrival o.id)) ∧
    ((s.allOps.find? fun x => x.id = o.id && s.reoffers x) = some o → puts (.patchReoffer o.id)) ∧
    ((s.allOps.find? fun x => x.id = n && s.reoffers x) = none →
      (s.heldPackets.find? fun x => x.1 = n && s.packetMoves x) = some (n, h, p) →
      State.peerOffer { s with heldPackets := s.heldPackets.erase (n, h, p) } h p = .answer u a →
      ∃ v, exec (.patchReoffer n) s = .next v ∧ { v with past := u.past } = u) ∧
    ((s.core.ops.find? fun x => x.id = o.id) = some o → o.answerAt = none →
      (o.state = .answered .accepted → ∃ v, exec (.patchAnswer o.id) s = .next v ∧ s.SameContents v ∧
        v.core.ops = s.core.ops.filter (·.id ≠ o.id) ∧ v.core.mine = s.core.mine ++ o.names.map (·, o.issued) ∧
        (o.outstanding = true → v.core.lastAnswer = some s.ctime)) ∧
      (o.state = .answered (.refused code reason x0 x1) → ∃ v, exec (.patchAnswer o.id) s = .next v ∧ s.SameContents v ∧
        v.core.ops = s.core.ops.filter (·.id ≠ o.id) ∧ v.core.mine = s.core.mine ∧
        v.core.faultQ = s.core.faultQ ++ [⟨code, .deferred, 7, o.at_, true, refusalStatus o code reason, x0, x1, none⟩]) ∧
      (o.state = .answered (.pred yes) → o.pred = some pr → ∃ v q, exec (.patchAnswer o.id) s = .next v ∧ s.SameContents v ∧
        v.core.ops = s.core.ops.filter (·.id ≠ o.id) ∧ v.core.timeline = ⟨s.ctime + 1, q, .wp .W pr yes⟩ :: s.core.timeline ∧
        (s.core.w.wait = some (.answer o.id) → v.core.w.wait = none ∧ v.core.w.mode = .running))) ∧
    (shut → exec (.sealLineUpdate tenant (some (h, r))) s = .next s ∧ exec (.operationPacketArrival ⟨h, b⟩) s = .next s ∧
      ∃ v, exec (.podReleaseAck h n) s = .next v ∧ v.core.releases = s.core.releases ∧ s.SameContents v) ∧
    (passes → h.tenant = tenant → ∃ v, exec (.sealLineUpdate tenant (some (h, r))) s = .next v ∧ v.core = s.core ∧
      (v.tenants = s.tenants.map fun x => if x.id = tenant then
        { x with peerSeals := ⟨h.source, (r.line + 1).toNat, r.floor⟩ :: x.peerSeals.filter (·.origin ≠ h.source) } else x) ∧
      (∀ y, r.serials.find? (fun z => z.1 = m) = some y → ∀ x ∈ v.tensors, x.tenant = tenant → ∀ q ∈ x.chain,
        nameOrigin q.name = h.source.toNat → nameTask q.name = m → q.rs = some y.2)) ∧
    (passes → ∃ v, exec (.podReleaseAck h n) s = .next v ∧ (∀ x ∈ v.core.releases, x.id = n → h.source ∈ x.acks) ∧
      v.core.releases.length = s.core.releases.length ∧ s.SameContents v) ∧
    (passes → s.tensorOf h.tenant p.tid = some t → t.desc.remote = true → PKind.remote p.kind = true →
      s.arriveRecord h.tenant (s.homeOf t) p.replay (packetRecord h p) = .answer u a →
      ∃ v, exec (.operationPacketArrival ⟨h, .patch p⟩) s = .next v ∧ { v with past := u.past } = u) ∧
    (passes → ∃ v, exec (.operationPacketArrival ⟨h, .release n set⟩) s = .next v ∧ v.core = s.core ∧
      v.relHist = s.relHist ++ [⟨s.trunk, 1024 + h.source.toNat, 5, set, none⟩] ∧ v.podAcks = (h.source, n) :: s.podAcks) ∧
    (∃ v, exec (.sourceCloseExpiry (st, dev)) s = .next v ∧ v.core = s.core ∧ dev ∉ (v.stations[st.toNat]'(by omega)).closed ∧
      ∀ k (hk : k < 16), k ≠ st.toNat → v.stations[k] = s.stations[k])

/-- The end of an XLATE writes the handle of an installed mapping; with bits [63:57] of the address not zero, or with
no mapping, an invalid handle, and TRANSLATION is raised, deferred; a mapping that is not installed freezes the core
until it is. TRANSLATION_INSTALL writes the handle, unless a later word has written it meanwhile, and ends that
freeze. REVOCATION_MARKER makes every handle that was built from the mapping invalid and leaves the others; its marker
names every copy command and every patch of the running task that is not done. PAGE_RELEASE takes away a page, and its
marker, where nothing that the marker names is outstanding; while a copy command that it names has not completed, or a
patch that it names has no answer, the page stays. (R147, R203, R204, R207) -/
def Obligations.MappingEventsComplete : Prop :=
  ∀ (n m : BitVec 5) (va : Word) (pl : Place) (tenant : BitVec 4) (v : Nat) (p : Page) (s : State),
    let wrong := fun (reason : BitVec 4) => ∃ t, s.xlateAct n va pl = t ∧ (t.core.readH n) = .invalid ∧
      t.core.faultQ = s.core.faultQ ++ [⟨0x42, .deferred, 11, pl, true, reason ++ n ++ 0#23, 0, 0, none⟩]
    let map := s.pageAt s.core.tenant va.toNat
    ((va.extractLsb' 57 7 : BitVec 7) ≠ 0 → wrong 2) ∧
    ((va.extractLsb' 57 7 : BitVec 7) = 0 →
      (map = none → s.replayRevoked va.toNat = false → wrong 1) ∧
      (map = some p → p.installed = true → (s.xlateAct n va pl).core.readH n = pageHandle p ∧
        (s.xlateAct n va pl).core.freeze = s.core.freeze ∧ (m ≠ n → (s.xlateAct n va pl).core.readH m = s.core.readH m)) ∧
      (map = some p → p.installed = false → (s.xlateAct n va pl).core.freeze = .install n va :: s.core.freeze ∧
        ∃ d, s.trunk < d ∧ (d, Instr.translationInstall) ∈ (s.xlateAct n va pl).agenda)) ∧
    (∀ rest, s.core.freeze = .install n va :: rest → .install n va ∉ rest → map = some p → ∃ t, exec .translationInstall s = .next t ∧
      t.core.readH n = pageHandle p ∧ t.core.freeze = rest ∧ { p with installed := true } ∈ t.pages ∧
      (m ≠ n → t.core.readH m = s.core.readH m)) ∧
    (∀ rest, s.core.freeze = .installOver va :: rest → .installOver va ∉ rest → map = some p →
      ∃ t, exec .translationInstall s = .next t ∧ t.core.h = s.core.h ∧ t.core.freeze = rest ∧
        { p with installed := true } ∈ t.pages) ∧
    ((s.pages.find? fun x => x.tenant = tenant && x.va = v && !x.revoked) = some p →
      ∃ t, exec (.revocationMarker tenant v) s = .next t ∧ s.SameMemory t ∧
        t.core.readH m = (if (s.core.readH m).valid && (s.core.readH m).tenant = tenant && (s.core.readH m).va = p.va
          then .invalid else s.core.readH m) ∧
        ∃ k ∈ t.markers, k.tenant = tenant ∧ k.va = v ∧ ∀ x, s.task = some x → s.core.tenant = tenant →
          (∀ q ∈ s.core.copyQ, q.done = false → (x, q.key) ∈ k.copies) ∧
          (∀ o ∈ s.core.ops, (∀ b, o.state ≠ .answered b) → (x, o.key) ∈ k.patches)) ∧
    ((s.pages.find? fun x => x.tenant = tenant && x.va = v && s.releasable x) = some p →
      exec (.pageRelease tenant v) s =
      .next { s with pages := s.pages.erase p, markers := s.markers.filter fun k => !(k.tenant = tenant && k.va = v) }) ∧
    (∀ k ∈ s.markers, k.tenant = tenant → k.va = v → ∀ x, s.task = some x →
      ((∃ q ∈ s.core.copyQ, q.done = false ∧ (x, q.key) ∈ k.copies) ∨
        ∃ o ∈ s.core.ops, (∀ b, o.state ≠ .answered b) ∧ (x, o.key) ∈ k.patches) →
      exec (.pageRelease tenant v) s = .next s)

/-- RELEASE_COMPLETE publishes the release, once, on the cycle on which it completes and takes it off the core; its
set holds the task's own patches from before the release, what the core has observed, and the originals of the
inverses among them; the cluster that waits for it goes on from the next cycle, FENCE with both acquires then, and the
release of TASKEND lets its task retire. PHASE_FINAL drops the rollback points of the phases that are final and of no
other, the space they took, and the answers that no rollback to a remaining point can ask for; what stood outside the
core since a remaining point stays kept. CHECKPOINT_COPY_ADVANCE appends the base bytes of its granule to the tensor's
shard and moves the cursor on, or ends the snapshot after the last granule. (R181, R266, R267, R271, R336, R371, R372,
R378, R379) -/
def Obligations.ReleaseAndPhaseEventsComplete : Prop :=
  ∀ (r : Release) (tid : BitVec 24) (t : Tensor) (g : Nat) (s : State),
    ((s.core.releases.find? fun x => x.id = r.id && s.releaseReady x) = some r → ∃ u set, exec (.releaseComplete r.id) s = .next u ∧
      (let inSet := fun (x : PName) => (∃ m ∈ s.core.mine, m.1 = x ∧ m.2 < r.issued) ∨ x ∈ s.core.observed
       ∀ x, x ∈ set ↔ inSet x ∨ ∃ y, inSet y ∧ y.2.getLsbD 0 = true ∧ x = (y.1, y.2 &&& ~~~1#64)) ∧
      ((∀ x ∈ s.log, x.1 ≠ r.key) → u.relHist = s.relHist ++
        [⟨s.trunk, s.core.pcore.toNat, r.scope, set, if r.act = .taskend then s.task else none⟩]) ∧
      ((∃ x ∈ s.log, x.1 = r.key) → u.relHist = s.relHist) ∧
      u.core.releases = s.core.releases.filter (·.id ≠ r.id) ∧ s.SameMemory u ∧
      (r.act = .plain → (s.core.cl r.at_.cl).wait = some (.release r.id) →
        (u.core.cl r.at_.cl).wait = none ∧ (u.core.cl r.at_.cl).mode = .running ∧ 1 ≤ (u.core.cl r.at_.cl).idleRem) ∧
      (∀ o, r.act = .flag o → (u.core.cl r.at_.cl).wait = some (.access (s.ctime + 4)) ∧
        s.Adds u [(s.ctime + 4, .flag r.at_.cl { o with rel := some set })]) ∧
      (∀ sc, r.act = .acquire sc → ∀ x, x ∈ u.core.observed ↔ x ∈ s.core.observed ∨ ∃ y ∈ s.relHist, y.at_ < s.trunk ∧
        s.covers sc s.core.pcore.toNat y.core = true ∧ s.covers y.scope y.core s.core.pcore.toNat = true ∧ x ∈ y.set) ∧
      (r.act = .taskend → u.retiring = s.task)) ∧
    (∃ u, exec .phaseFinal s = .next u ∧ s.SameContents u ∧
      (∀ x, x ∈ u.snaps ↔ x ∈ s.snaps ∧ ∀ e, x.ended = some e → s.trunk < e + 600) ∧
      (∀ x, x ∈ u.core.touched ↔ x ∈ s.core.touched ∧
        (x.1 = s.core.phase ∨ ∃ n ∈ u.snaps, n.phase = x.1)) ∧
      (∀ x ∈ s.past, (∃ n ∈ u.snaps, n.ctime ≤ x.1.1) → x ∈ u.past) ∧
      (∀ x, x ∈ u.opLog ↔ x ∈ s.opLog ∧ (x.1.1 = s.core.phase ∨ ∃ n ∈ u.snaps, n.phase = x.1.1 ∨ n.ctime ≤ x.2.2))) ∧
    ((s.tensors.find? fun x => x.desc.tid = tid) = some t → t.snap = some g →
      ∃ u, exec (.checkpointCopyAdvance tid) s = .next u ∧ s.SameMemory u ∧
        (∀ x ∈ s.shards, x.1 = t.tenant → shardOf tid x.2 = true → ∃ y ∈ u.shards, y.1 = t.tenant ∧ shardOf tid y.2 = true ∧
          y.2.payload = x.2.payload ++ (s.baseGranule t g).1 ∧ shardIncomplete y.2.head = decide (g + 1 < t.granules)) ∧
        (∀ x ∈ u.tensors, x.desc.tid = tid → x.tenant = t.tenant →
          x.snap = if g + 1 < t.granules then some (g + 1) else none))

/-- WALK_POINT_REACHED makes the tasks of the next walk point, those whose slices are not empty. TASK_DISPATCH to the
core gives it the task: k6 holds its index, k0 to k5 and KEND the bounds of its slices, and LCORE, NEST, PRIO and
TENANT its place; a launch that is new to the core starts it with CTIME 0, and any other keeps CLAG. TASK_DISPATCH to
another core changes neither this core nor its task. TASK_RETIREMENT of the core's task frees the core and its tokens,
and reports the task's CIR to its tenant, whose queues are open, with LOST set where a replaced patch of the task had
been read by another core. TASK_RETIREMENT of a task on another core publishes that task's last release on that cycle,
with its own patches in the chains among its set, and changes nothing of this core; what else its set holds is free
(log entry 4). HALT_RETIREMENT makes the release of TASKEND. LAUNCH_COMPLETION reports a launch all of whose tasks
have retired. (R107, R121, R148, R153, R154, R168, R331, R334, R336, R337, R338, R374) -/
def Obligations.TaskEventsComplete : Prop :=
  ∀ (l : Launch) (k ix core : Nat) (n : Nest) (x : Task) (tn : Tenant) (s : State), s.launchOf l.id = some l →
    (∀ m, s.walkDue l k = true → l.nests[k]? = some m → exec (.walkPointReached l.id k) s =
      .next (s.setLaunch { l with nests := l.nests.set k { m with reached := m.reached + 1 }, tasks := l.tasks ++
        ((List.range m.width).filter (m.isTask m.reached)).map fun c => ⟨k, m.taskIx m.reached c, m.reached, c, .ready, 0, false⟩ })) ∧
    ((l.tasks.find? fun t => t.ix = ix && t.state = .ready) = some x → l.nests[x.nestIx]? = some n →
      (∃ t, exec (.taskDispatch l.id ix s.core.pcore.toNat) s = .next t ∧ t.task = some (l.id, x.ix) ∧
        t.contextLaunch = some l.id ∧ t.core.readK 6 = BitVec.ofNat 64 x.ix ∧ t.core.cir = 0 ∧ t.core.phase = 0 ∧
        (∀ j : Fin 6, t.core.kend[j] = BitVec.ofNat 64 (n.levelRange x.walk x.lcore j.val).2) ∧
        (∀ j : BitVec 3, j.toNat < 6 → t.core.readK j = BitVec.ofNat 64 (n.levelRange x.walk x.lcore j.toNat).1) ∧
        t.core.lcore = BitVec.ofNat 8 x.lcore ∧ t.core.nest = BitVec.ofNat 16 n.nest ∧ t.core.prio = BitVec.ofNat 3 n.prio ∧
        t.core.tenant = l.tenant ∧ t.core.pcore = s.core.pcore ∧
        (s.contextLaunch ≠ some l.id → t.ctime = 0) ∧
        (s.contextLaunch = some l.id → t.core.clag = s.core.clag)) ∧
      (core ≠ s.core.pcore.toNat → ∃ t, exec (.taskDispatch l.id ix core) s = .next t ∧ t.core = s.core ∧ t.task = s.task)) ∧
    (s.retiring = some (l.id, ix) → s.crownDown = false → (∀ t ∈ l.tasks, t.ix = ix → t.state = .running core) →
      (∃ t ∈ l.tasks, t.ix = ix) → (∀ m ∈ s.launches, m.tenant = l.tenant → m = l) → tn ∈ s.tenants → tn.id = l.tenant →
      s.hacc = true → tn.created = true → ∃ t, exec (.taskRetirement l.tenant ix) s = .next t ∧ t.task = none ∧ t.retiring = none ∧
        (∀ q, (t.core.readQ q).state = .free) ∧ (∀ c, (t.core.cl c).mode = .parked) ∧
        ∃ y ∈ t.tenants, y.id = tn.id ∧ y.posted = (tn.compSeq, .taskCir ix
          (if l.tasks.any (fun t => t.ix = ix && t.lost) then s.core.cir ||| BitVec.twoPow 64 15 else s.core.cir)) :: tn.posted) ∧
    (s.retiring ≠ some (l.id, ix) → s.task ≠ some (l.id, ix) → (∀ t ∈ l.tasks, t.ix = ix → t.state = .running core) →
      (∃ t ∈ l.tasks, t.ix = ix) → (∀ m ∈ s.launches, m.tenant = l.tenant → m = l) →
      ∃ t r, exec (.taskRetirement l.tenant ix) s = .next t ∧ t.core = s.core ∧ t.relHist = s.relHist ++ [r] ∧ r.at_ = s.trunk ∧
        r.core = core ∧ r.scope = 5 ∧ r.task = some (l.id, ix) ∧
        ∀ d ∈ s.tensors, d.tenant = l.tenant → ∀ q ∈ d.chain, nameTask q.name = ix → nameOrigin q.name = s.origin.toNat →
          (q.tid.toNat, q.name) ∈ r.set) ∧
    (s.haltDone = true → ∃ t r, exec .haltRetirement s = .next t ∧ t.core.releases = s.core.releases ++ [r] ∧ r.scope = 5 ∧
      r.act = .taskend ∧ r.notBefore = s.trunk + 600 ∧ t.core.s.wait = some (.taskendRelease r.id)) ∧
    (s.launches.find? Launch.allRetired = some l → tn ∈ s.tenants → tn.id = l.tenant → l.cancelled = false →
      s.hacc = true → tn.created = true →
      ∃ t, exec .launchCompletion s = .next t ∧ t.core = s.core ∧ t.launches = (s.launches.map fun y =>
        if y.id = l.id then { l with completed := true, granted := false, barriers := [] } else y) ∧
        ∃ y ∈ t.tenants, y.id = tn.id ∧ y.posted = (tn.compSeq, .launchDone l.id l.poisoned) :: tn.posted)

/-- After a dispatch to the core, each cluster enters the first section of its own kind in plane order, with IDLEREM
0, no steer pending, ANY and LRET 0; a cluster whose kind has no section in the plane is parked. The loader refuses a
plane without a section of S. (R107) -/
def Obligations.TaskStart : Prop :=
  (∀ p, planeRefused p = false → ∃ x, firstSection p .S = some x) ∧
  ∀ (l : Launch) (x : Task) (n : Nest) (s : State) (c : Cluster), s.launchOf l.id = some l →
    (l.tasks.find? fun t => t.ix = x.ix && t.state = .ready) = some x → l.nests[x.nestIx]? = some n →
    ∃ t, exec (.taskDispatch l.id x.ix s.core.pcore.toNat) s = .next t ∧
      (t.core.cl c).idleRem = 0 ∧ (t.core.cl c).steer = none ∧ (t.core.cl c).any = false ∧ (t.core.cl c).lret = 0 ∧
      (∀ off h, ((sections t.activePlane).find? fun y => y.2.kind = c.idx) = some (off, h) →
        (t.core.cl c).hdr = off ∧ (t.core.cl c).sec = h.secno ∧ (t.core.cl c).word = 0 ∧ (t.core.cl c).mode = .entryWait) ∧
      (((sections t.activePlane).find? fun y => y.2.kind = c.idx) = none → (t.core.cl c).mode = .parked)

/-- PREEMPTION_REQUEST makes a pre-emption pending. CONTEXT_SAVE, for a core that is frozen for a pre-emption whose
phases are final, moves the context with its registers, its frozen core time and its task to the saved ones, in a save
area that is taken from its tenant's LPDDR-6 quota, and leaves the core free. CONTEXT_RESTORE brings it back and gives
the area back: its registers read as they were saved, CTIME goes on from the saved value, FIJ is zero, and PCORE is
the new core's. PLANE_LOAD fills the shadow plane with the image that is wanted. PLANE_WORD_ERROR freezes the core
until the loader has rewritten the word. (R121, R153, R325, R335, R339, R358, R359, R361, R368) -/
def Obligations.ContextEventsComplete : Prop :=
  ∀ (task : Nat × Nat) (slot : Nat) (x : Saved) (s : State),
    ((∀ p ∈ s.core.pending, p.1 ≠ .preempt) → exec .preemptionRequest s =
      .next { s with core := { s.core with pending := s.core.pending ++ [(.preempt, s.trunk + 1)] } }) ∧
    (s.task = some task → .event .preempt ∈ s.core.freeze → (∀ y, s.core.swapTrunk = some y → y + 600 ≤ s.trunk) →
      ∃ t y, exec .contextSave s = .next t ∧ t.saved = s.saved ++ [y] ∧ t.task = none ∧ t.core.freeze = [] ∧
        t.core.pcore = s.core.pcore ∧ y.task = task ∧ y.ctime = s.ctime ∧ s.core.SameRegisters y.core ∧
        s.core.SameSystem y.core ∧ y.core.ls = s.core.ls ∧ y.core.mr = s.core.mr ∧ y.core.scale = s.core.scale ∧
        y.core.timeline = s.core.timeline ∧
        t.tenants = s.tenants.map fun z =>
          if z.id = s.core.tenant then { z with saveUsed := z.saveUsed + Config.saveBytes } else z) ∧
    (s.saved[slot]? = some x → x.ctime ≤ s.trunk → ∃ t, exec (.contextRestore slot) s = .next t ∧
      t.saved = s.saved.eraseIdx slot ∧ t.task = some x.task ∧ t.ctime = x.ctime ∧ t.core.fij = 0 ∧
      t.core.pcore = s.core.pcore ∧ x.core.SameRegisters t.core ∧ t.core.ls = x.core.ls ∧ t.core.acc = x.core.acc ∧
      t.core.tol = x.core.tol ∧ t.core.ftab = x.core.ftab ∧ t.core.phase = x.core.phase ∧
      t.tenants = s.tenants.map fun z =>
        if z.id = x.core.tenant then { z with saveUsed := z.saveUsed - Config.saveBytes } else z) ∧
    (s.loadDue = true → ∃ t, exec .planeLoad s = .next t ∧ t.core = s.core ∧
      t.planes[if s.core.plane then 0 else 1]'(by split <;> decide) = s.imageWanted ∧
      t.planes[if s.core.plane then 1 else 0]'(by split <;> decide) = s.planes[if s.core.plane then 1 else 0]'(by split <;> decide)) ∧
    (∃ t d, exec .planeWordError s = .next t ∧ .reload ∈ t.core.freeze ∧ s.trunk < d ∧ (d, Instr.coreResume) ∈ t.agenda ∧
      s.SameContents t)

/-- FLAG_FILE_GRANT lends the gangs' flag files, with every flag zero where the launch has none saved, and what was
saved otherwise; FLAG_FILE_SAVE takes them back with their values. KICK_PLACEMENT of a well-formed child with more
than 128 free entries puts it into the pool and ends the wait, and of a refused one raises CHILD POOL with its reason.
SPILLED_KICK_ENTERS_POOL moves the oldest spilled record. CROWN_TAKEOVER of the first crown core leaves the second,
which takes over later; when that time has come, the scheduler runs again and holds no retirement any more, with
nothing else changed where the journal accounts for every dispatch and pool entry; a failure of the second is
reported. That a take-over is two steps, and a change with its journal entry one, is the model's choice (log entry
19), and so is that the event speaks for the other cores of the gang (log entry 4). (R268, R340, R341, R343, R344,
R346, R360) -/
def Obligations.CrownEventsComplete : Prop :=
  ∀ (l : Launch) (k : KickOp) (x : Nat × Word) (xs : List (Nat × Word)) (f : BitVec 8) (s : State), s.launchOf l.id = some l →
    (s.flagsFree l = true → s.ownGang l = true → ∃ t, exec (.flagFileGrant l.id) s = .next t ∧ t.core = s.core ∧
      (∀ y ∈ t.launches, y.id = l.id → y.granted = true) ∧
      (l.savedFlags = none → t.flagAt f = 0 ∧ t.flagHist = []) ∧
      (∀ v h, l.savedFlags = some (v, h) → t.flags = v ∧ t.flagHist = h)) ∧
    (l.granted = true → l.completed = false →
      (s.ownGang l = true → (∀ y, s.task = some y → y.1 ≠ l.id) ∧ ∃ y ∈ s.saved, y.task.1 = l.id) →
      ∃ t, exec (.flagFileSave l.id) s = .next t ∧
        ∀ y ∈ t.launches, y.id = l.id → y.granted = false ∧ y.savedFlags = some (s.flags, s.flagHist)) ∧
    (s.core.kick = some k → s.ownLaunch = some l → k.bytes.length = 16 → s.crownDown = false → s.waitKept .kick = none →
      let n := childNest l s.core.nest.toNat k
      let share := ((s.tenants.find? fun t => t.id = l.tenant).map (·.share)).getD 0
      (∀ y ∈ l.nests, y.child ≠ some k.name) →
      (childReason l s.core.prio.toNat share n = 0 → s.pool.length + 128 < 2048 → ∃ t, exec .kickPlacement s = .next t ∧
        t.pool = s.pool ++ [(l.id, k.name)] ∧ t.core.kick = none ∧ t.core.s.wait = none ∧ t.core.s.mode = .running ∧
        ∀ y ∈ t.launches, y.id = l.id → y.nests = l.nests ++ [n]) ∧
      (childReason l s.core.prio.toNat share n ≠ 0 → s.core.freeze = [] → s.core.shadow.active = false →
        s.faultBuf.length < 512 → ∃ t, exec .kickPlacement s = .next t ∧ t.core.kick = none ∧ t.pool = s.pool ∧
          t.core.kseq = s.core.kseq - 1 ∧ t.core.s.word = k.at_.word ∧
          ∃ d, t.core.handling = some d ∧ d.code = 0x71 ∧ d.kind = .precise ∧ d.x0 = k.name ∧
            d.status.extractLsb' 24 8 = BitVec.ofNat 8 (childReason l s.core.prio.toNat share n))) ∧
    (s.spillQ = x :: xs → s.pool.length + 128 < 2048 →
      exec .spilledKickEntersPool s = .next { s with pool := s.pool ++ [x], spillQ := xs }) ∧
    (s.crownDown = false → s.crowns = 2 → ∃ t d, exec .crownTakeover s = .next t ∧ t.crowns = 1 ∧ t.crownDown = true ∧
      t.takeoverAt = some d ∧ s.trunk < d ∧ (d, Instr.crownTakeover) ∈ t.agenda ∧ t.core = s.core) ∧
    (∀ d, s.crownDown = true → s.takeoverAt = some d → d ≤ s.trunk → ∃ t, exec .crownTakeover s = .next t ∧ t.crownDown = false ∧
      t.takeoverAt = none ∧ t.heldRetirements = []) ∧
    (∀ d, s.crownDown = true → s.takeoverAt = some d → d ≤ s.trunk → s.heldRetirements = [] →
      (∀ e ∈ s.journal, e.good = true) → (∀ y ∈ s.pool, ∃ e ∈ s.journal, e.change = .placed y.1 y.2) →
      (∀ e ∈ s.journal, ∀ n ix core, e.change = .dispatched n ix core → ∀ y, s.launchOf n = some y →
        ∀ z, y.task ix = some z → z.state ≠ .ready) →
      exec .crownTakeover s = .next { s with crownDown := false, takeoverAt := none, heldRetirements := [] }) ∧
    (s.crownDown = false → s.crowns = 1 → s.hacc = true → ∃ t, exec .crownTakeover s = .next t ∧ t.crowns = 0 ∧ t.crownDown = true ∧
      t.core = s.core ∧ ∀ y ∈ t.tenants, y.created = true → (y.compSeq - 1, .crownFailed) ∈ y.posted)

/-- With the version accepted, a crown core running and the tenant created, an entry with the next expected number is
executed and answered: a launch that passes the checks is accepted with the next task indices, and one that fails is
refused with its reason; a cancelled launch starts no further task; a checkpoint starts a snapshot of each tensor; a
checkpoint that passes its four checks is loaded: each element of a payload stands in its tensor's base, in whichever
page holds it, a poisoned line of a shard is poisoned, and no other byte changes; one that does not is refused with
the number of the check and changes nothing; an attestation gives the signed measurements; a debugger attaches where
the records allow it; kept completions are written again. What a cancellation leaves running is the model's choice
(log entry 16), and so are the core set of a launch to which none of its shape was given (log entry 43), the order of
the certificates (log entry 73) and which lines of a marked shard are poisoned, which is free (log entry 22). The
expected number goes up by one. An entry among the last 32 that was executed is answered as it was and not executed
again, and any other is answered with the gap. Other tenants stay as they are. (R327, R330, R331, R332, R362, R378,
R381, R387, R388, R389, R392, R394) -/
def Obligations.SubmissionsComplete : Prop :=
  ∀ (tn : Tenant) (q : LaunchReq) (id : Nat) (tids : List (BitVec 24)) (c : Checkpoint) (nonce : BitVec 256) (start : BitVec 32)
    (seq : BitVec 32) (s : State), s.hacc = true → s.crownDown = false → tn ∈ s.tenants → (∀ x ∈ s.tenants, x.id = tn.id → x = tn) →
    tn.created = true →
    let i := tn.id
    let others := fun (t : State) => ∀ x, x.id ≠ i → (x ∈ t.tenants ↔ x ∈ s.tenants)
    let posts := fun (t : State) (a : Completion) => others t ∧ ∃ y ∈ t.tenants, y.id = i ∧
      y.posted = (tn.compSeq, a) :: tn.posted ∧ y.expected = tn.expected + 1 ∧ y.executed = tn.executed + 1
    (seq = tn.expected →
      (s.launchReason i q = 0 → ∃ t l, exec (.submitLaunch i seq q) s = .next t ∧ t.launches = s.launches ++ [l] ∧
        l.tenant = i ∧ l.seq = seq ∧ l.cores = coreSet (launchShape (nestsOf q.recs)) ((nestsOf q.recs).any Nest.flg) q.cores ∧
        l.nests.length = q.recs.length ∧ l.completed = false ∧ (∀ n, l.nests.head? = some n → n.ixbase = tn.ixCounter) ∧
        t.core = s.core ∧ others t ∧ ∃ y ∈ t.tenants, y.id = i ∧ y.posted = tn.posted ∧ y.expected = tn.expected + 1) ∧
      (s.launchReason i q ≠ 0 → ∃ t, exec (.submitLaunch i seq q) s = .next t ∧ t.launches = s.launches ∧
        t.tensors = s.tensors ∧ posts t (.launchRefused (s.launchReason i q))) ∧
      (∃ t, exec (.cancelLaunch i seq id) s = .next t ∧ posts t (.cancelled id) ∧ t.core = s.core ∧
        ∀ x ∈ t.launches, x.id = id → x.tenant = i → x.completed = false → x.cancelled = true ∧ ∀ k ∈ x.tasks, k.state ≠ .ready) ∧
      (∃ t, exec (.takeCheckpoint i seq tids) s = .next t ∧ posts t .checkpointStarted ∧ t.core = s.core ∧
        (tn.checkpointArea = true → ∀ d ∈ tids, ∀ x, t.tensorOf i d = some x → x.snap.isSome = true)) ∧
      (s.loadReason i c ≠ 0 → ∃ t, exec (.loadCheckpoint i seq c) s = .next t ∧ posts t (.loadRefused (s.loadReason i c)) ∧
        t.gmem = s.gmem ∧ t.gpoison = s.gpoison ∧ t.tensors = s.tensors ∧ t.core = s.core) ∧
      (s.loadReason i c = 0 → s.gmem.wf = true →
        let lands := fun (x : Shard) (d : Tensor) (g k : Nat) => x ∈ c.shards ∧ s.tensorOf i (x.head.tid.setWidth 24) = some d ∧
          g < d.granules ∧ s.baseKey d g = some k
        let bytes := fun (x : Shard) (d : Tensor) (g : Nat) => (x.payload.drop (256 * g)).take (min 256 (d.count * d.size - 256 * g))
        (∀ x d g k, lands x d g k → k % 256 = 0) →
        (∀ x d g k x' d' g' k', lands x d g k → lands x' d' g' k' → k = k' → x = x' ∧ g = g') →
        ∃ t, exec (.loadCheckpoint i seq c) s = .next t ∧ posts t .loadDone ∧ t.core = s.core ∧ t.tensors = s.tensors ∧
          t.pages = s.pages ∧
          (∀ x d g k, lands x d g k → ∀ j < (bytes x d g).length,
            let bad := x.head.flags.getLsbD 1 = true ∧ Config.shardPoison (x.head.tid.setWidth 24) (4 * g + j / 64) = true
            t.gmem.get (k + j) = (bytes x d g).getD j 0 ∧
            (bad → t.gbad (k + j) = true ∧ t.gbyte (k + j) = 0) ∧
            (¬bad → 64 * (j / 64) + 64 ≤ (bytes x d g).length → t.gbad (k + j) = false ∧ t.gbyte (k + j) = (bytes x d g).getD j 0)) ∧
          ∀ a, (∀ x d g k, lands x d g k → a < k ∨ k + (bytes x d g).length ≤ a) → t.gmem.get a = s.gmem.get a) ∧
      (∃ t r, exec (.attestation i (some seq) nonce) s = .next t ∧ posts t (.attested r) ∧ t.core = s.core ∧ r.nonce = nonce ∧
        r.measurements = s.measurements ∧ r.records = s.records ∧
        r.certificates = [Config.certify (Config.identityKey s.identity) s.attestKey, s.identityCert] ∧
        r.signature = Config.ecdsaSign s.attestKey (Config.sha256 (Config.reportBytes nonce r.measurements r.records r.certificates))) ∧
      (∃ t, exec (.debuggerAttach i (some seq) true) s = .next t ∧ posts t (.debugger tn.debug) ∧ t.core = s.core ∧
        t.debugger = (if tn.debug then some i else s.debugger)) ∧
      (∃ t, exec (.replayCompletions i seq start) s = .next t ∧ others t ∧ ∃ y ∈ t.tenants, y.id = i ∧ y.expected = tn.expected + 1 ∧
        ((tn.compSeq - start).toNat ≤ tn.kept.length → y.posted = (tn.compSeq, .replayed (tn.compSeq - start).toNat) ::
          (tn.kept.take (tn.compSeq - start).toNat ++ tn.posted)))) ∧
    (let back := (tn.expected - seq).toNat
     let unread := fun (t : State) (y : Tenant) => exec (.submitLaunch i seq q) s = .next t ∧ t.launches = s.launches ∧ t.core = s.core ∧
       others t ∧ y ∈ t.tenants ∧ y.id = i ∧ y.expected = tn.expected ∧ y.executed = tn.executed
     (seq ≠ tn.expected → 32 < back ∨ tn.executed < back → ∃ t y, unread t y ∧
       y.posted = (tn.compSeq, .gap tn.expected seq) :: tn.posted) ∧
     (seq ≠ tn.expected → back ≤ 32 → back ≤ tn.executed → ∃ t y, unread t y ∧ y.compSeq = tn.compSeq ∧
       (∀ a, tn.answers.find? (fun a => a.1 = seq) = some (seq, a) → y.posted = a :: tn.posted)))

/-- DOORBELL hands a tenant's new entries to the device. HIVER_WRITE, while no queue is open, sets the version and
accepts exactly major 1 with minor 0. TENANT_CREATION opens a tenant's queues with number 0 and its task indices at 0;
TENANT_TEARDOWN takes its launches, pages, tensors and cached units away, clears a context of it from the core, and
journals the release of every flag file that a launch of it held (the ring holds 4,096 entries). TENANT_JOIN gives a
station a context of nonzero weight while it has room, and admits to its partition the peers whose version word has
this device's major version. UALINK_TRAINING brings up a port of four lanes that asks for nothing the device lacks.
UALINK_LINK_DOWN takes a link that is up down and tells every created tenant. What goes with a tenant beside what the
rules name is the model's choice (log entry 44), that its page table comes with TENANT_CREATION too (log entry 88),
and that a page beyond its tier is not installed (log entry 67), and so is that the peers come with the context (log
entry 37). (R13, R203, R225, R228, R332, R382, R383, R386, R387, R388, R389) -/
def Obligations.HostAndLinkEventsComplete : Prop :=
  ∀ (tn : BitVec 4) (es : List SubEntry) (maj mnr : BitVec 4) (a b c : Nat × Nat) (pages : List Page) (st : BitVec 4)
    (ctx : StationCtx) (peers : List (BitVec 10 × BitVec 32)) (d : BitVec 10) (tr : Training) (s : State),
    let at_ := fun (t : State) => t.stations[st.toNat]'(by omega)
    let others := (at_ s).contexts.filter fun y => y.tenant ≠ ctx.tenant
    (s.hacc = true → ∃ t, exec (.doorbell tn es) s = .next t ∧ t.core = s.core ∧
      t.tenants = s.tenants.map fun x => if x.id = tn then (if x.created then { x with inbox := x.inbox ++ es } else x) else x) ∧
    ((s.hacc = false ∨ ∀ x ∈ s.tenants, x.created = false) → ∃ t, exec (.hiverWrite maj mnr) s = .next t ∧
      t.hmaj = maj ∧ t.hmin = mnr ∧ (t.hacc = true ↔ maj = 1 ∧ mnr = 0) ∧ t.core = s.core) ∧
    (s.hacc = true → (∃ x ∈ s.tenants, x.created = true) → exec (.hiverWrite maj mnr) s = .next s) ∧
    ((∀ x ∈ s.tenants, x.id = tn → x.created = false) → ∃ t y, exec (.tenantCreation tn a b c pages) s = .next t ∧
      y ∈ t.tenants ∧ y.id = tn ∧ y.created = true ∧ y.ixCounter = 0 ∧ y.expected = 0 ∧ y.compSeq = 0 ∧ y.subQ = a ∧
      y.compQ = b ∧ y.faultQ = c ∧ y.inbox = [] ∧ t.pages = s.pages ++ pages.filter fun p => p.tenant = tn && pageFits s.areas p) ∧
    (∃ t, exec (.tenantTeardown tn) s = .next t ∧ (∀ x ∈ t.launches, x.tenant ≠ tn) ∧ (∀ x ∈ t.pages, x.tenant ≠ tn) ∧
      (∀ x ∈ t.tensors, x.tenant ≠ tn) ∧ (∀ x ∈ t.cache, x.tenant ≠ tn) ∧ (∀ x ∈ t.tenants, x.id = tn → x.created = false) ∧
      (s.launches.length ≤ 4096 → ∀ l ∈ s.launches, l.tenant = tn → l.granted = true → l.completed = false →
        ∃ e ∈ t.journal, e.change = .grant l.id false) ∧
      (∀ l ∈ s.launches, l.tenant = tn → s.contextLaunch = some l.id →
        t.task = none ∧ t.core.k = Core.fresh.k ∧ t.core.ls = [] ∧ t.core.pcore = s.core.pcore)) ∧
    (ctx.weight ≠ 0 → others.length < 16 → ∃ t, exec (.tenantJoin st ⟨ctx, peers⟩) s = .next t ∧ (at_ t).contexts = others ++ [ctx] ∧
      t.core = s.core ∧ (d ∈ peers.map (·.1) → ((ctx.partition, d) ∈ t.members ↔
        ∃ p ∈ peers, p.1 = d ∧ (p.2.extractLsb' 16 8 : BitVec 8) = 1))) ∧
    (∃ t, exec (.ualinkTraining st tr) s = .next t ∧ t.core = s.core ∧
      ((at_ t).up = true ↔ tr.port = 4 ∧ tr.atomics = false ∧ tr.security = false ∧ tr.other = false)) ∧
    ((at_ s).up = false → exec (.ualinkLinkDown st) s = .next s) ∧
    ((at_ s).up = true → ∃ t, exec (.ualinkLinkDown st) s = .next t ∧ (at_ t).up = false ∧ s.core.SameRegisters t.core ∧
      s.SameMemory t ∧ (s.hacc = true → ∀ x ∈ t.tenants, x.created = true → (x.compSeq - 1, .linkDown st.toNat) ∈ x.posted))

/-- STRIKE_REPORT for the core's zone, with the oldest phase that is not final and all of them protected, takes the
core back to that phase's rollback point: its memory, registers and phase are those of the point, its core time too,
CIR.RB is set, and the core stays frozen for the refetch; without the protection CIR.LOST is set and nothing is taken
back. ECC_UNCORRECTABLE poisons its unit. THROTTLE_BUBBLE changes no clock but real time. HOST_WAKE and
FIRMWARE_UPDATE run the boot chain on the flash, which stops at the first stage that fails, and at an image with a
version below the device's own counter; a chain that does not stop has measured its three images and its records.
THERMAL_POWER_OFF leaves the device off with the event recorded, and tells every created tenant if the host link
stands. The order of the boot checks (log entry 27), what a bubble brings nearer (log entry 28), what outlasts a reset
(log entry 29), the length of the refetch (log entry 41) and the point kept within a first cycle (log entry 65) are
the model's choices. (R14, R120, R365, R367, R369, R370, R372, R390, R392, R393) -/
def Obligations.ReliabilityEventsComplete : Prop :=
  ∀ (n : Snap) (rest : List Snap) (u : PoisonUnit) (k : Nat) (f : BootFlash) (s : State),
    let v := s.keepMidway
    let g := { f with monotonic := max s.monotonic f.monotonic }
    (s.task.isSome = true → v.cancelled = n :: rest → n.ctime ≤ s.trunk →
      (v.cancelled.all v.isCovered = true → ∃ t resume m, exec (.strikeReport s.zone) s = .next t ∧ t.ctime = n.ctime ∧
        n.core.SameRegisters t.core ∧ (∀ m, t.core.mem m = n.core.mem m) ∧ t.core.phase = n.core.phase ∧
        t.core.cir = n.core.cir ||| BitVec.twoPow 64 13 ∧ .refetch resume m ∈ t.core.freeze ∧ s.trunk < resume) ∧
      (v.cancelled.all v.isCovered = false → ∃ t, exec (.strikeReport s.zone) s = .next t ∧ s.core.SameRegisters t.core ∧
        s.SameMemory t ∧ t.core.phase = s.core.phase ∧ t.core.cir = s.core.cir ||| BitVec.twoPow 64 15)) ∧
    (k ≠ s.zone → exec (.strikeReport k) s = .next s) ∧
    (∃ t, exec (.eccUncorrectable u) s = .next t ∧ s.core.SameRegisters t.core ∧ s.SameMemory t ∧
      (∀ l, u = .memLine l → l ∈ t.gpoison ∧ t.core = s.core) ∧
      ((∀ l, u ≠ .memLine l) → (∀ tid name, u ≠ .patchData tid name) → u ∈ t.core.poison) ∧
      (∀ tid name, u = .patchData tid name → ∀ x ∈ t.tensors, ∀ r ∈ x.chain, r.tid.toNat = tid → r.name.toNat = name →
        r.poisoned = true)) ∧
    (∃ t, exec (.throttleBubble k) s = .next t ∧ t.bubble = s.bubble + k ∧ t.trunk = s.trunk ∧ t.core.clag = s.core.clag ∧
      (∀ c, (t.core.cl c).idleRem = (s.core.cl c).idleRem) ∧ t.core.timeline = s.core.timeline ∧ s.SameContents t) ∧
    (s.boot = .off → ∃ t, exec (.hostWake f) s = .next t ∧ t.monotonic = max s.monotonic f.monotonic ∧ t.identity = f.identity ∧
      t.identityCert = f.identityCert ∧ (∀ j r, chainStops g = some (j, r) → t.boot = .stopped j r) ∧
      (chainStops g = none → t.boot = .running ∧ t.trunk = 0 ∧ t.records = f.records.map (·.digest) ∧
        t.measurements = (f.stages.take 3).map (fun b => Config.sha256 b.image) ++
          [Config.sha256 (f.records.flatMap fun r => Config.recordBytes r.length r.version r.body)])) ∧
    (∀ b, chainStops g = none → b ∈ f.stages.take 3 → s.monotonic ≤ b.version) ∧
    (∀ j r, s.boot = .stopped j r → ∃ t, exec (.firmwareUpdate f) s = .next t ∧
      t.monotonic = max s.monotonic f.monotonic ∧ (chainStops g = none → t.boot = .running)) ∧
    (s.boot ≠ .off → ∃ t, exec .thermalPowerOff s = .next t ∧ t.boot = .off ∧ t.mgmtLog = s.trunk :: s.mgmtLog ∧
      t.launches = [] ∧ t.task = none ∧ (∀ x ∈ t.tenants, x.created = false) ∧
      (Config.linkStands s.free = true → s.hacc = true → ∀ x ∈ s.tenants, x.created = true →
        ∃ y ∈ t.tenants, y.id = x.id ∧ (y.compSeq - 1, .poweredOff) ∈ y.posted))

/-- Every TRUNK_CYCLE advances the trunk counter by one. On a core that is frozen, with no refetch that ends, CLAG
goes up by one, so that core time stands still, and no memory of the core changes and no act of the timeline is
performed; on a core that runs, with no fault queued, CLAG stands still and core time goes up by one. On one that runs
with faults queued, the first of them by R348, those that waited for precise faults of the cycle among them, is taken:
with room in the fault buffer its record is written and core time stands still. (R14, R119, R120, R121, R122, R348) -/
def Obligations.TrunkCycleMovesTime : Prop :=
  ∀ (s : State), ∃ t, exec .trunkCycle s = .next t ∧ t.trunk = s.trunk + 1 ∧
    (s.core.freeze ≠ [] → (∀ r m, .refetch r m ∈ s.core.freeze → s.trunk + 1 < r) →
      t.core.clag = s.core.clag + 1 ∧ t.core.timeline = s.core.timeline ∧ ∀ m, t.core.mem m = s.core.mem m) ∧
    (s.core.freeze = [] → s.core.faultQ = [] → s.core.waitQ = [] →
      t.core.clag = s.core.clag ∧ (s.core.clag ≤ s.trunk → t.ctime = s.ctime + 1)) ∧
    (∀ f, s.core.freeze = [] → s.core.shadow.active = false → s.faultBuf.length < 512 →
      Core.nextFault { s.core with faultQ := s.core.waitQ ++ s.core.faultQ } = some f →
      t.core.handling = some f ∧ t.ctime = s.ctime ∧ ∃ r, t.faultBuf = s.faultBuf ++ [r] ∧ r.w0 = f.word0)

/-- A fault of the running core, with room in the fault buffer, writes one record with its code, kind, engine,
cluster, section, word and NEXT bit, its status and extension words, PCORE, LCORE and TENANT, the trunk counter, the
frozen core time, NEST and the task index, and the next record number; the core freezes, on its core cycle, and the
handler is to start, or, where the plane has none, the record carries UNH and the context has stopped. No register,
system register or byte of memory changes. Stalls and deferred faults that are queued when a precise fault is taken
wait until the words of the cycle have issued, so that its precise faults come first. While the core is frozen a fault
only waits its turn. A fault of a shadow word is recorded with DBL and stops the context. With the buffer full the
core holds the record. (R121, R347, R348, R349, R351, R352, R354, R356) -/
def Obligations.TakingAFault : Prop :=
  ∀ (f : FaultInfo) (s : State), f.kind ≠ .info →
    let t := s.raise f
    let shadow := s.core.shadow.active
    let stop : Freeze := if (findSection s.activePlane .S 1022).isSome then .entering else .stopped
    s.SameContents t ∧ t.trunk = s.trunk ∧ t.ctime = s.ctime ∧ t.core.timeline = s.core.timeline ∧
    (s.core.freeze = [] → shadow = false → s.faultBuf.length < 512 →
      t.core.handling = some f ∧ t.core.freeze = [stop] ∧ t.recSeq = s.recSeq + 1 ∧ ∃ r, t.faultBuf = s.faultBuf ++ [r] ∧
        r.w0.toNat / 2 ^ 56 = f.code % 256 ∧ r.w0.extractLsb' 48 2 = BitVec.ofNat 2 f.at_.cl.idx ∧
        r.w0.extractLsb' 38 10 = f.at_.sec ∧ r.w0.extractLsb' 26 12 = f.at_.word ∧ r.w0.getLsbD 25 = f.next ∧
        r.w0.extractLsb' 50 4 = BitVec.ofNat 4 f.engine ∧
        r.w0.extractLsb' 54 2 = (match f.kind with | .precise => 0#2 | .deferred => 1#2 | .stall => 2#2 | .info => 3#2) ∧
        r.w0.extractLsb' 0 25 = 0 ∧ r.w1.extractLsb' 0 32 = f.status ∧ r.w1.extractLsb' 32 8 = s.core.pcore ∧
        r.w1.extractLsb' 40 8 = s.core.lcore ∧ r.w1.extractLsb' 48 4 = s.core.tenant ∧ r.w1.extractLsb' 52 2 = 0#2 ∧
        r.w1.getLsbD 54 = (findSection s.activePlane .S 1022).isNone ∧ r.w1.extractLsb' 55 9 = 0 ∧ r.w2 = f.x0 ∧ r.w3 = f.x1 ∧
        r.w4 = BitVec.ofNat 64 s.trunk ∧ r.w5 = BitVec.ofNat 64 s.ctime ∧ r.w6.extractLsb' 48 16 = s.core.nest ∧
        r.w6.extractLsb' 0 36 = (s.core.readK 6).extractLsb' 0 36 ∧ r.w7 = s.recSeq.setWidth 64) ∧
    (s.core.freeze = [] → shadow = false → s.faultBuf.length < 512 → f.kind = .precise →
      t.core.faultQ = s.core.faultQ.filter (·.kind = .precise) ∧
      t.core.waitQ = s.core.waitQ ++ s.core.faultQ.filter (·.kind ≠ .precise)) ∧
    (s.core.freeze ≠ [] → shadow = false → t = { s with core := { s.core with faultQ := s.core.faultQ ++ [f] } }) ∧
    (shadow = true → f.kind = .precise → t.core.freeze = .stopped :: s.core.freeze ∧ t.core.handling = s.core.handling ∧
      (s.faultBuf.length < 512 → ∃ r, t.faultBuf = s.faultBuf ++ [r] ∧ r.w1.getLsbD 52 = true ∧ r.w0 = f.word0)) ∧
    (s.core.freeze = [] → shadow = false → 512 ≤ s.faultBuf.length →
      t.core.freeze = [.buffer] ∧ t.faultBuf = s.faultBuf ∧ t.overflow = true ∧ ∃ r, t.core.heldRec = some (r, f))

/-- On the trunk cycle after a fault's record, on a plane with a handler section, the shadow context runs at word 0 of
the handler section: CTX.SHADOW is 1, TRAPREC holds record word 0, and the shadow registers g1 to g4 receive record
words 0, 1 (the zero-extended status), 2 and 3; every register of the frozen context and every memory keep their
values, and so do its other g and p registers, where no register write of its previous run is due on that cycle. In
the shadow context, with its guard true and nothing that the handled fault holds back, ERET ends the shadow context
and takes the handler's freeze away; the registers, the system registers, and all memory are as the handler left them.
With another fault queued, that fault is taken at once: of the queued ones a precise fault of the first cluster in
order, else a stall, else the first to arrive; with room in the fault buffer its record is written, and the core
freezes for it. Outside the shadow context ERET is ILLEGAL WORD reason 6. (R123, R141, R144, R347, R348, R349, R352,
R355) -/
def Obligations.HandlerStartsAndReturns : Prop :=
  (∀ (f : FaultInfo) (off : Nat) (h : Header) (s : State), s.core.freeze = [.entering] → s.core.handling = some f →
      findSection s.activePlane .S 1022 = some (off, h) →
      ∃ t, exec .trunkCycle s = .next t ∧ t.core.shadow.active = true ∧ (t.readSys .ctx).getLsbD 7 = true ∧
        t.core.freeze = [.handler] ∧ t.core.shadow.sec = 1022 ∧ t.core.shadow.word = 0 ∧ t.core.shadow.hdr = off ∧
        t.core.shadow.idleRem = 0 ∧ t.core.traprec = f.word0 ∧
        ((∀ a ∈ s.core.shadow.pend, s.trunk + 1 < a.1) → t.core.shadow.readG 1 = f.word0 ∧
          t.core.shadow.readG 2 = f.status.setWidth 64 ∧ t.core.shadow.readG 3 = f.x0 ∧ t.core.shadow.readG 4 = f.x1 ∧
          (∀ n : BitVec 5, 4 < n.toNat → t.core.shadow.readG n = s.core.shadow.readG n) ∧ t.core.shadow.p = s.core.shadow.p) ∧
        (∀ c, t.core.cl c = s.core.cl c) ∧ t.core.y = s.core.y ∧ t.core.k = s.core.k ∧ t.core.cb = s.core.cb ∧
        (∀ m, t.core.mem m = s.core.mem m) ∧ t.ctime = s.ctime) ∧
  (∀ (hd : Head) (s : State),
      (s.core.shadow.active = true → s.core.shadow.readP hd.psel ≠ hd.neg → s.core.handling.all (fun f => f.hold.isNone) = true →
        ∃ t, exec (.eret hd) s = .next t ∧ t.core.shadow.active = false ∧
          s.core.SameRegisters t.core ∧ s.core.SameSystem t.core ∧ s.SameMemory t ∧
          (s.core.faultQ = [] → t.core.freeze = s.core.freeze.filter (· ≠ .handler) ∧ t.core.handling = none ∧
            t.faultBuf = s.faultBuf) ∧
          (∀ f, s.core.nextFault = some f → s.core.freeze = [.handler] → s.faultBuf.length < 512 →
            t.core.handling = some f ∧ t.core.faultQ = s.core.faultQ.erase f ∧ t.ctime = s.ctime ∧
            t.core.freeze = [if (findSection s.activePlane .S 1022).isSome then .entering else .stopped] ∧
            ∃ r, t.faultBuf = s.faultBuf ++ [r] ∧ r.w0 = f.word0 ∧ r.w1.extractLsb' 0 32 = f.status ∧ r.w2 = f.x0 ∧ r.w3 = f.x1)) ∧
      (s.core.faultQ ≠ [] → ∃ f ∈ s.core.faultQ, s.core.nextFault = some f ∧
        (f.kind = .precise → ∀ x ∈ s.core.faultQ, x.kind = .precise → f.at_.cl.idx ≤ x.at_.cl.idx) ∧
        (f.kind ≠ .precise → ∀ x ∈ s.core.faultQ, x.kind ≠ .precise) ∧
        (f.kind ≠ .precise → f.kind ≠ .stall → s.core.faultQ.head? = some f ∧ ∀ x ∈ s.core.faultQ, x.kind ≠ .stall)) ∧
      (s.core.shadow.active = false →
        exec (.eret hd) s = .next (s.raise (illegalHere (Issue.of s hd 0x11) 0))))

/-- A word that issues takes the next place in issue order, and its writes with it. Of two writes of one register (a
y, g, a, p, k, cb or h register, or a spill token) that perform on the same core cycle, that of the word that issued
later stands, whichever was put on the timeline first; of two that perform on different cycles, the one that performs
later stands, even where it was issued earlier. (R145, R146, R147) -/
def Obligations.WritesOfOneCycle : Prop :=
  ∀ (i : Issue) (o : Nat) (a : Act) (y : BitVec 4) (c : Cluster) (n : BitVec 5) (x : BitVec 3) (b : BitVec 2) (v w : Word)
    (v32 w32 : BitVec 32) (vp wp : Bool) (vh wh : Handle) (vt wt : Token) (p q t u : Nat) (s : State),
    let two := fun (m n : Nat) (e f : Act) => s.core.timeline = [⟨m, p, e⟩, ⟨n, q, f⟩] ∨ s.core.timeline = [⟨n, q, f⟩, ⟨m, p, e⟩]
    let stands : ∀ {α : Type}, (Core → α) → Act → Act → α → α → Prop := fun read e f first later =>
      (p < q → two t t e f → read (s.performDue t).core = later) ∧
      (t < u → two t u e f → read (s.performDue t).core = first ∧ read ((s.performDue t).performDue u).core = later)
    (i.shadow = false → ((s.advance i).after i o a).core.timeline = ⟨i.t + o, s.core.seq + 1, a⟩ :: s.core.timeline ∧
      (s.advance i).core.seq = s.core.seq + 1) ∧
    stands (fun d => d.readY y) (.wy y v) (.wy y w) v w ∧
    (n ≠ 0 → stands (fun d => (d.cl c).readG n) (.wg c n v) (.wg c n w) v w) ∧
    stands (fun d => (d.cl c).readA y) (.wa c y v32) (.wa c y w32) v32 w32 ∧
    (n ≠ 0 → stands (fun d => (d.cl c).readP n) (.wp c n vp) (.wp c n wp) vp wp) ∧
    stands (fun d => d.readK x) (.wk x v) (.wk x w) v w ∧
    stands (fun d => d.readCb b) (.wcb b v) (.wcb b w) (v &&& 0xFFE303) (w &&& 0xFFE303) ∧
    stands (fun d => d.readH n) (.wh n vh) (.wh n wh) vh wh ∧
    stands (fun d => d.readQ y) (.wtok y vt) (.wtok y wt) vt wt

/-- On the cycle a word would issue, its cluster's own predicate p[PSEL] is read, XORed with NEG. Where that is false,
the word of any form only occupies its issue cycle and its idle count: the next state is that of the issue alone, in
which no register, system register or byte of memory has changed and nothing has joined the timeline. Only where its
context forbids the word does it raise ILLEGAL WORD instead: in a joined section, a word that R117 keeps out of it,
JSEC without a steer, or BR out of the section; in the shadow context, a word that R353 does not list, or FGET with an
order; and anywhere LOOP and LOOPX with another section, MFS of TRAPREC and ERET outside the shadow context, and MTS
of a register that it may not write there. PSEL 0 with NEG 0 is always true, and with NEG 1 always false. (R59) -/
def Obligations.GuardOff : Prop :=
  ∀ (ins : Instr) (w : IWord) (s : State), encode ins = some w →
    let hd := headOf w
    let i := Issue.of s hd (w.extractLsb' 88 8).toNat
    let p := if s.core.shadow.active then s.core.shadow.readP hd.psel else (s.core.cl i.c).readP hd.psel
    let u := s.advance i
    let opc := (w.extractLsb' 88 8).toNat
    let shadowWords := [0x01, 0x03, 0x04, 0x05, 0x06, 0x07, 0x08, 0x09, 0x0E, 0x0F, 0x10, 0x11, 0x13, 0x14, 0x20, 0x21, 0x22, 0x23,
      0x24, 0x25, 0x26, 0x28, 0x29, 0xC4, 0xD0, 0xD7]
    let special : Bool := match ins with
      | .br _ _ sec => i.joined && sec != i.at_.sec
      | .jsec _ _ => i.joined
      | .jsecSteer _ _ _ => i.shadow
      | .jsecPark _ _ => i.shadow
      | .loop _ _ _ sec => sec != i.at_.sec
      | .loopx _ _ _ _ _ sec => sec != i.at_.sec
      | .eret _ => !i.shadow
      | .mfs _ _ r => r = .traprec && !i.shadow
      | .mts _ r _ => match r with
        | .tol _ => false
        | .fij => false
        | .cir => !i.shadow
        | .mxret => !i.shadow
        | _ => true
      | .fget _ _ _ o => i.shadow && o.ord != 0
      | _ => false
    let refused : Bool := special || (i.joined && [0x02, 0x04, 0x05, 0x06, 0x0B, 0xC9, 0xCA].contains opc) ||
      (i.shadow && !shadowWords.contains opc)
    (s.guard i hd = (p ^^ hd.neg)) ∧
    (hd.psel = 0 → s.guard i hd = !hd.neg) ∧
    ((p ^^ hd.neg) = false →
      if refused then ∃ fn, exec ins s = .next (s.raise (illegalHere i fn)) else exec ins s = .next u) ∧
    s.SameContents u ∧ u.core.timeline = s.core.timeline ∧ u.core.shadow.pend = s.core.shadow.pend ∧
    (s.core.shadow.active = false → (u.core.cl i.c).idleRem = hd.idle.toNat ∧
      (i.joined = false → (u.core.cl i.c).word = (s.core.cl i.c).word + 1))

/-- Outside the shadow context, whatever a word of any form does on its issue cycle, completing, waiting or raising a
fault, every register, system register, accumulator state and byte of memory reads afterwards as before: its writes
wait on the timeline. The words that act on such state at issue are left out: the products and the check words, which
count into CIR (0x40 to 0x42 and 0x47 to 0x4B), SPILL and FILL, which move their token (0x17, 0x18), CBLD and CBREST,
which mark their bank (0x80, 0x83), and SWAP (0xC9). (R145, R146, R347) -/
def Obligations.IssueFrame : Prop :=
  ∀ (ins : Instr) (w : IWord) (s t : State), encode ins = some w → s.core.shadow.active = false →
    (w.extractLsb' 88 8).toNat ∉ [0x40, 0x41, 0x42, 0x47, 0x48, 0x49, 0x4A, 0x4B, 0x17, 0x18, 0x80, 0x83, 0xC9] →
    exec ins s = .next t → s.SameContents t

/-- At reset the trunk counter, core time, the lag and CIR are zero, the core runs no task and is not frozen, every g,
a and y register is zero, p0 is true and the other predicates false, every handle is invalid, every token FREE,
codebook selector n selects bank n, the format table is empty, and every memory is in canonical form and reads as
zero. Zero contents of the registers before a first task, and of the memories, are the model's choice (log entries 2
and 3). (R14, R142, R149) -/
def Obligations.ResetValues : Prop :=
  let s := State.reset
  s.trunk = 0 ∧ s.ctime = 0 ∧ s.core.clag = 0 ∧ s.core.cir = 0 ∧ s.task = none ∧ s.core.freeze = [] ∧ s.launches = [] ∧
  (∀ c n, (s.core.cl c).readG n = 0) ∧ (∀ c n, (s.core.cl c).readA n = 0) ∧
  (∀ c n, (s.core.cl c).readP n = decide (n = 0)) ∧ (∀ n, s.core.readY n = 0) ∧ (∀ n, s.core.readH n = .invalid) ∧
  (∀ n, (s.core.readQ n).state = .free) ∧ (∀ n : BitVec 2, s.core.readCb n = n.setWidth 64) ∧ s.readSys .ftab = 0 ∧
  (∀ m a, (s.core.mem m).get a = 0) ∧ (∀ a, s.gmem.get a = 0) ∧ s.MemoryForm

/-- In every state in which every memory of the part is in canonical form (addresses rising, no byte listed that an
unlisted address reads as), in the core, in saved contexts, in rollback points and behind handles, the state after a
step that answers one has the same form. Equal memories are therefore equal data in every run. (R12, R170, R359, R369)
-/
def Obligations.MemoryFormKept : Prop :=
  ∀ s t : State, s.MemoryForm → step s = .next t → t.MemoryForm

/-- On the cycle on which part p of segment i is read, VADD, VSUB, VMUL, VFMA, VMAX, VMIN, VABS, VNEG, VCLAMP, the six
functions of R190, VCMP, VSEL, VMOV, VBCAST, VIOTA, VAND, VOR, VXOR, VSHL, VSHR, VRAND, VSCAN, VCVT, VQUANT and VDEQ
read the elements of their streams at a[X] + i x step, little-endian, bytes of a poisoned line as zero, and put one
write of the part's results on the timeline, the word's latency later: every element is the result of its rule,
converted once to its format, under rne_ef with the residual of its block (R94; VIOTA R195, VRAND R199, VQUANT and
VDEQ R102 and R103); VRCP writes 1 / a, and of VRSQRT, VSQRT, VEXP2, VLOG2 and VTANH it says that they write the value
of the model's fnConvert for R190. VBSCL writes a segment's scales with part 15; VPACK and VUNPACK turn bytes into the
bit string of their indices and back (R105), in parts of 16 indices, which for VUNPACK is the model's reading (log
entry 80); VCBX writes the bytes of the entries that its indices name (R200). A refused scale and an index beyond the
loaded entries fault, and nothing of that segment or a later one is read or written; that a refused scale of VQUANT
and VDEQ faults with the read of part 0 of its segment is the model's choice (log entry 59). No byte, register or
other entry changes then. The words with an output phase keep what they read. That phase writes VRSUM's, VRMAX's and
VRMIN's one element, the exact sum, largest or smallest of all elements, converted; VCOMPACT's selected elements in
order, then zeros, with their number in its y register; VTOPK's K first elements in its order, then their indices,
whose chunks after those of the values are the model's choice (log entry 71); and VGATHER's table elements, chunk m on
the m-th cycle. (R102, R104, R186, R189, R190, R191, R192, R193, R194, R196, R197, R198) -/
def Obligations.VectorActs : Prop :=
  (∀ (c : Core) (j : VJob) (f : Fmt) (i p cyc q : Nat), i < j.cnt → j.ef < 16 → Fmt.ofCode j.ef = some f →
    let w := f.bytes
    let n := 16 / w
    let byte := fun (a : Nat) => if c.poison.contains (.lsLine (a / 64)) then 0 else (c.ls.get a).toNat
    let word := fun (a k : Nat) => ((List.range w).map fun x => byte (a + (w * k + x)) * 256 ^ x).sum
    let start := fun (base : Nat) (step : Int) => ((base : Int) + i * step + 16 * p).toNat
    let rawA := word (start j.aa j.as)
    let rawB := word (start j.ba j.bs)
    let rawD := word (start j.da j.ds)
    let a := fun k => f.value (rawA k)
    let b := fun k => f.value (rawB k)
    let e := fun k => f.value (rawD k)
    let kept := fun (key k : Nat) => f.value ((List.range w).map fun x => ((c.buf j.id key).getD (w * k + x) 0).toNat * 256 ^ x).sum
    let limit := fun k => if i = 0 ∧ p = 0 then f.value (word j.ba k) else kept 1 k
    let rdn := decide (j.mode = .rdn)
    let out := fun (v : Val) => convertTo f v j.mode j.sat
    let ones := 256 ^ w - 1
    let d := c.performAct cyc ⟨cyc, q, .vec j i p⟩
    let number := fun (bs : List Byte) (x0 len : Nat) => ((List.range len).map fun x => (bs.getD (x0 + x) 0).toNat * 256 ^ x).sum
    let memory := fun (x0 len : Nat) => ((List.range len).map fun x => byte (x0 + x) * 256 ^ x).sum
    let writesN := fun (count lat size addr : Nat) (r : Nat → Nat) =>
      (∃ bs : List Byte, d.timeline = ⟨cyc + lat, q, .wr .ls [(addr, count * size)] bs⟩ :: c.timeline ∧ bs.length = count * size ∧
        ∀ k < count, number bs (size * k) size = r k % 256 ^ size) ∧
      c.SameRegisters d ∧ (∀ m x, (d.mem m).get x = (c.mem m).get x) ∧ (c.poison = [] → d.cir = c.cir)
    let writes := writesN n
    let elem := fun (k : Nat) => if k / n = p then a (k % n) else kept (2 * (16 * i + k / n)) (k % n)
    let upTo := ((List.range (16 * i + p)).flatMap fun x => (List.range n).map fun k => kept (2 * x) k) ++ (List.range n).map a
    let blocks := 256 / w / 32
    let side := fun (blk : Nat) =>
      if p = 0 then memory (((j.ba : Int) + i * j.bs).toNat + 4 * blk) 4 else number (c.buf j.id (32 * i + 1)) (4 * blk) 4
    let refused := fun (blk : Nat) => side blk / 2 ^ 31 = 1 ∨ (Fmt.f32.value (side blk)).isNaN = true ∨ (j.op = .quant ∧ side blk = 0)
    let stops := fun (code engine : Nat) (sub : Nat) =>
      d.faultQ = c.faultQ ++ [⟨code, .deferred, engine, j.at_, true,
        1#8 ++ BitVec.ofNat 8 j.op.opc ++ 0#1 ++ BitVec.ofNat 3 sub ++ BitVec.ofNat 12 i, 0, 0, none⟩] ∧
      ∀ x, x ∈ d.timeline ↔ x ∈ c.timeline ∧ ∀ k s y, x.act = .vec k s y → k.id = j.id → s < i
    let gives := fun (op : VFn) (lat : Nat) (r : Nat → Nat) => j.op = op → writes lat w (start j.da j.ds) r
    let hash := fun (k : Nat) =>
      let h0 := j.y.extractLsb' 0 32 ^^^ (j.y.extractLsb' 32 32 + BitVec.ofNat 32 (256 / w * i + n * p + k))
      let h1 := (h0 ^^^ (h0 >>> 16)) * 0x2C1B3C6D#32
      let h2 := (h1 ^^^ (h1 >>> 15)) * 0x297A2D39#32
      (h2 ^^^ (h2 >>> 16)).toNat
    let xs := (List.range (16 * j.cnt)).flatMap fun x => (List.range n).map fun k => kept (2 * x) k
    let o := c.performAct cyc ⟨cyc, q, .vout j⟩
    let reduces := fun (op : VFn) (lat : Nat) (g : Fmt) (v : Val) => j.op = op →
      ∃ bs : List Byte, o.timeline = ⟨cyc + lat, q, .wr .ls [(j.da, g.bytes)] bs⟩ :: c.timeline ∧ bs.length = g.bytes ∧
        ((List.range g.bytes).map fun x => (bs.getD x 0).toNat * 256 ^ x).sum = convertTo g v j.mode j.sat % 256 ^ g.bytes
    gives .add 2 (fun k => out ((a k).add rdn (b k))) ∧
    gives .sub 2 (fun k => out ((a k).add rdn (b k).negate)) ∧
    gives .mul 4 (fun k => out ((a k).mul (b k))) ∧
    gives .fma 4 (fun k => out (((a k).mul (b k)).add rdn (e k))) ∧
    gives .max 2 (fun k => out ((a k).larger (b k))) ∧
    gives .min 2 (fun k => out ((a k).smaller (b k))) ∧
    gives .abs 2 (fun k => out (a k).magnitude) ∧
    gives .neg 2 (fun k => out (a k).negate) ∧
    gives .clamp 2 (fun k => out (
      if (a k).isNaN || (limit 0).isNaN || (limit 1).isNaN then .nan
      else if (limit 1).below (limit 0) then limit 1 else ((a k).larger (limit 0)).smaller (limit 1))) ∧
    gives .rcp 8 (fun k => out ((Val.ofInt 1).div (a k))) ∧
    gives .cmp 2 (fun k =>
      if (match j.mod with
        | 0 => (a k).eqv (b k)
        | 1 => !(a k).eqv (b k)
        | 2 => (a k).lt (b k)
        | 3 => (a k).lt (b k) || (a k).eqv (b k)
        | 4 => (b k).lt (a k)
        | _ => (b k).lt (a k) || (a k).eqv (b k)) then ones else 0) ∧
    gives .sel 2 (fun k => if rawD k ≠ 0 then rawA k else rawB k) ∧
    gives .mov 2 rawA ∧
    gives .bcast 2 (fun _ => j.y.toNat) ∧
    gives .iota 2 (fun k => out (.ofInt (256 / w * i + n * p + k : Nat))) ∧
    gives .and 2 (fun k => rawA k &&& rawB k) ∧
    gives .or 2 (fun k => rawA k ||| rawB k) ∧
    gives .xor 2 (fun k => rawA k ^^^ rawB k) ∧
    gives .shl 2 (fun k => rawA k * 2 ^ (rawB k % (8 * w))) ∧
    gives .shr 2 (fun k =>
      if f.isSigned = true ∧ 2 ^ (8 * w - 1) ≤ rawA k then
        (((rawA k : Int) - 256 ^ w) / 2 ^ (rawB k % (8 * w)) % 256 ^ w).toNat
      else rawA k / 2 ^ (rawB k % (8 * w))) ∧
    gives .rsqrt 8 (fun k => fnConvert .rsqrt f j.mode j.sat (a k)) ∧ gives .sqrt 8 (fun k => fnConvert .sqrt f j.mode j.sat (a k)) ∧
    gives .exp2 8 (fun k => fnConvert .exp2 f j.mode j.sat (a k)) ∧ gives .log2 8 (fun k => fnConvert .log2 f j.mode j.sat (a k)) ∧
    gives .tanh 8 (fun k => fnConvert .tanh f j.mode j.sat (a k)) ∧
    (j.ef = 13 → gives .rand 4 hash) ∧
    (j.ef = 1 → gives .rand 4 (fun k => convertTo .f32 (.fin false (hash k / 2 ^ 8) 1 24) .rne false)) ∧
    (∀ g : Fmt, Fmt.ofCode (j.mod / 16 % 16) = some g →
      let streams := writes 4 g.bytes ((j.da : Int) + i * j.ds + p * (n * g.bytes)).toNat
      let converts := fun (v : Nat → Val) =>
        (j.mode ≠ .rneEf → streams (fun k => convertTo g (v (n * p + k)) j.mode j.sat)) ∧
        streams (fun k => convertElement g j.mode j.sat ((List.range (n * (p + 1))).map v) (n * p + k))
      (j.op = .cvt → converts elem) ∧
      ((j.op = .quant ∨ j.op = .deq) → 
        ((p = 0 → ∀ blk < blocks, ¬refused blk) →
          converts fun k => if j.op = .quant then (elem k).div (Fmt.f32.value (side (k / 32)))
            else (elem k).mul (Fmt.f32.value (side (k / 32)))) ∧
        (∀ blk < blocks, p = 0 → refused blk → (∀ x < blk, ¬refused x) → stops 0x24 2 blk)) ∧
      (j.op = .scan → streams fun k =>
        let xs := upTo.take (n * (16 * i + p) + k + 1)
        convertTo g (Val.sum (rdn && !xs.all fun x => x.isZero && !x.sign) xs) j.mode j.sat) ∧
      (j.op = .bscl →
        let sc : Fmt := if j.mod / 8 % 2 = 1 then .e4m3 else .f32
        let largest : Nat → Val := fun b => (((List.range 32).map fun x => elem (32 * b + x)).filter (!·.isNaN)).foldl
          (fun (m x : Val) => m.larger x.magnitude) (Val.zero false)
        let scale := fun (b : Nat) =>
          if (largest b).isZero then convertTo sc (.ofInt 1) .rne false
          else if (largest b).isFinite = false then sc.spec.maxFinite
          else
            let s := convertTo sc ((largest b).div (targetMax g)) .rup false
            if sc.special s then sc.spec.maxFinite else s
        (p = 15 → writesN blocks 4 sc.bytes ((j.da : Int) + i * j.ds).toNat scale) ∧ (p < 15 → d.timeline = c.timeline)) ∧
      (j.da % g.bytes = 0 →
        reduces .rsum 4 g (Val.sum rdn xs) ∧
        ∀ x t, xs = x :: t → reduces .rmax 2 g (t.foldl Val.larger x) ∧ reduces .rmin 2 g (t.foldl Val.smaller x))) ∧
    (f = .n8 → 0 < j.ixw →
      (j.op = .pack → ∃ bs : List Byte, bs.length = 2 * j.ixw ∧ d.timeline =
          ⟨cyc + 4, q, .wr .ls [(((j.da : Int) + i * j.ds + p * (2 * j.ixw)).toNat, 2 * j.ixw)] bs⟩ :: c.timeline ∧
        ∀ k < 16, number bs 0 (2 * j.ixw) / 2 ^ (j.ixw * k) % 2 ^ j.ixw =
          if j.mod / 4 % 2 = 1 then min (rawA k) (2 ^ j.ixw - 1) else rawA k % 2 ^ j.ixw) ∧
      (j.op = .unpack → writes 4 1 (start j.da j.ds) fun k =>
        memory ((j.aa : Int) + i * j.as + p * (2 * j.ixw)).toNat (2 * j.ixw) / 2 ^ (j.ixw * k) % 2 ^ j.ixw)) ∧
    (j.op.output = true → j.op ≠ .gather → d.timeline = c.timeline ∧
      ∀ y < 16, ((d.buf j.id (2 * (16 * i + p))).getD y 0).toNat = byte (start j.aa j.as + y)) ∧
    (j.op = .compact ∨ j.op = .gather →
      ∀ y < 16, ((d.buf j.id (2 * (16 * i + p) + 1)).getD y 0).toNat = byte (start j.ba j.bs + y)) ∧
    (let puts := fun (base skip total : Nat) (b : Nat → Nat) => ∀ z < total, ∃ lo bs,
        (⟨cyc + 2 + skip + ((base + z) / 16 - base / 16), q, .wr .ls [(lo, bs.length)] bs⟩ : Entry) ∈ o.timeline ∧
        lo ≤ base + z ∧ base + z < lo + bs.length ∧ (bs.getD (base + z - lo) 0).toNat = b z;
      (j.op = .gather → (∀ x < 4 * j.cnt, (c.buf j.id (2 * (16 * (j.cnt + x)))).length = 16 * w) →
        puts j.da 0 (64 * j.cnt * w) fun z => ((c.buf j.id (2 * (16 * (j.cnt + z / (16 * w))))).getD (z % (16 * w)) 0).toNat) ∧
      (∀ x < 4 * j.cnt, j.op = .gather →
        let bs := (c.performAct cyc ⟨cyc, q, .vec j (j.cnt + x) 0⟩).buf j.id (2 * (16 * (j.cnt + x)))
        let index := fun (k : Nat) => number (c.buf j.id (2 * ((16 * x + k) / 4) + 1)) (4 * (k % 4)) 4
        bs.length = 16 * w ∧
          ∀ k < 16, ∀ y < w, (bs.getD (w * k + y) 0).toNat = byte (j.aa + index k % 2 ^ (j.mod % 32) * w + y)) ∧
      (let all := (List.range (16 * j.cnt)).flatMap fun x => (List.range n).map fun k =>
          (number (c.buf j.id (2 * x)) (w * k) w, number (c.buf j.id (2 * x + 1)) (w * k) w)
        let chosen := (all.filter fun x => x.2 ≠ 0).map (·.1)
        j.op = .compact → puts j.da 0 (256 * j.cnt) fun z =>
          if z / w < chosen.length then chosen.getD (z / w) 0 / 256 ^ (z % w) % 256 else 0) ∧
      (j.op = .topk → j.mod < xs.length →
        let v := fun (x : Nat) => xs.getD x .nan
        let before := fun (x y : Nat) => (v x).isNaN = true ∧ (v y).isNaN = false ∨
          (v x).isNaN = false ∧ (v y).isNaN = false ∧ (v y).below (v x) = true
        ∃ order : List Nat, order.Perm (List.range xs.length) ∧
          (∀ k, k + 1 < xs.length → let x := order.getD k 0; let y := order.getD (k + 1) 0; before x y ∨ (¬before y x ∧ x < y)) ∧
          puts j.da 0 ((j.mod + 1) * w) (fun z => convertTo f (v (order.getD (z / w) 0)) .rne false / 256 ^ (z % w) % 256) ∧
          puts j.ba ((j.da + (j.mod + 1) * w - 1) / 16 - j.da / 16 + 1) (4 * (j.mod + 1)) fun z =>
            order.getD (z / 4) 0 / 256 ^ (z % 4) % 256)) ∧
    (j.op = .compact → (⟨cyc + 2, q, .wy (BitVec.ofNat 4 j.mod) (BitVec.ofNat 64
      ((List.range (16 * j.cnt)).map fun x => ((List.range n).filter fun k =>
        ((List.range w).any fun y => (c.buf j.id (2 * x + 1)).getD (w * k + y) 0 ≠ 0)).length).sum)⟩ : Entry) ∈ o.timeline)) ∧
  (∀ (c : Core) (j : VJob) (i p cyc q : Nat), i < j.cnt → p < 16 → j.op = .cbx → j.ebytes ∈ [1, 2, 4, 8, 16, 32, 64, 128] →
    let d := c.performAct cyc ⟨cyc, q, .vec j i p⟩
    let byte := fun (a : Nat) => if c.poison.contains (.lsLine (a / 64)) then 0 else (c.ls.get a).toNat
    let first := i * (256 / j.ebytes) + 16 * p / j.ebytes
    let last := i * (256 / j.ebytes) + (16 * p + 15) / j.ebytes
    let lo := j.ixw * first / 8
    let bits := ((List.range ((j.ixw * (last + 1) + 7) / 8 - lo)).map fun x => byte (j.aa + lo + x) * 256 ^ x).sum
    let index := fun (k : Nat) => bits / 2 ^ (j.ixw * first % 8) / 2 ^ (j.ixw * k) % 2 ^ j.ixw
    ((p = 0 → c.cbxBad j i = false) → c.poison = [] → ∃ bs : List Byte, bs.length = 16 ∧ d.timeline =
        ⟨cyc + 4, q, .wr .ls [(((j.da : Int) + i * j.ds + 16 * p).toNat, 16)] bs⟩ :: c.timeline ∧ c.SameRegisters d ∧
      ∀ y < 16, bs.getD y 0 = c.cbmem.get
        (32768 * j.bank + 128 * index ((16 * p + y) / j.ebytes - 16 * p / j.ebytes) + (16 * p + y) % j.ebytes)) ∧
    (p = 0 → c.cbxBad j i = true →
      d.faultQ = c.faultQ ++ [⟨0x22, .deferred, 1, j.at_, true,
        1#8 ++ 0x67#8 ++ 0#1 ++ BitVec.ofNat 3 j.bank ++ BitVec.ofNat 12 i, 0, 0, none⟩] ∧
      ∀ x, x ∈ d.timeline ↔ x ∈ c.timeline ∧ ∀ k s y, x.act = .vec k s y → k.id = j.id → s < i))

/-- The accumulation of R97: an empty row leaves the starting value; a group of at most G products (4 for FP64, 32
otherwise) adds their exact sum, rounded, and rounds again; and a longer row is accumulated group by group in
increasing k. An element of an operand row is the value read, times its block scale, times the tensor scale for A. On
t + 39 the engine computes every cell in range from its row and column, starting from +0 for MMAS and otherwise from
the cell as it stands (a poisoned row reads as zeros), changing no register and no byte; on t + 40 every cell in range
holds the result, MXRET is valid, and no register and no other memory has changed. The last clause is for a product
that FIJ does not name. (R95, R97, R299, R304, R307, R310, R323, R367) -/
def Obligations.ProductActs : Prop :=
  (∀ (f64 : Bool) (v : Val),
    let af := if f64 then Fmt.f64 else Fmt.f32
    let g := if f64 then 4 else 32
    cellOf f64 v [] [] = v ∧
    (∀ x y : List Val, x ≠ [] → x.length = y.length → x.length ≤ g →
      cellOf f64 v x y = roundTo af (v.add false (roundTo af (Val.sum false (List.zipWith Val.mul x y)) .rne)) .rne) ∧
    (∀ x y z u : List Val, x.length = g → y.length = g → z.length = u.length →
      cellOf f64 v (x ++ z) (y ++ u) = cellOf f64 (cellOf f64 v x y) z u)) ∧
  (∀ (c : Core) (p : Prod) (isB : Bool) (r k : Nat) (f : Fmt), k < p.k →
    let x := if isB then p.b else p.a
    Fmt.ofCode x.fmt = some f →
    let v := f.value ((List.range f.bytes).map fun y =>
      ((c.buf p.id (if isB then 64 + r else r)).getD (f.bytes * k + y) 0).toNat * 256 ^ y).sum
    let v1 := if x.scales.getD r [] = [] then v else v.mul (Fmt.e4m3.value ((x.scales.getD r []).getD (k / 32) 0))
    (c.operandRow p isB r)[k]? = some (match p.st with
      | some st => if isB then v1 else v1.mul (Fmt.f32.value st)
      | none => v1)) ∧
  (∀ (c : Core) (p : Prod) (cyc q : Nat), p.m ≤ 64 → p.n ≤ 64 → p.pair = (p.f64 && !p.mr && decide (32 < p.n)) →
    (p.f64 = true → p.mr = true → p.n ≤ 32) →
    let af := if p.f64 then Fmt.f64 else Fmt.f32
    let dm := if p.mr then Mem.mr else Mem.acc
    let byte := fun (x : Nat) => if c.poison.contains (dm.unitAt x) then 0 else ((c.mem dm).get x).toNat
    let first := fun (i j : Nat) => if p.opc = 0x41 then Val.zero false
      else af.value ((List.range af.bytes).map fun y => byte (cellAddr p.mr p.f64 p.dest i j + y) * 256 ^ y).sum
    let result := fun (i j : Nat) => cellOf p.f64 (first i j) (c.operandRow p false i) (c.operandRow p true j)
    let d := c.performAct cyc ⟨cyc, q, .pcomp p⟩
    c.SameRegisters d ∧ (∀ m x, (d.mem m).get x = (c.mem m).get x) ∧
    ∃ rows r, d.timeline = ⟨cyc + 1, q, .pdone p rows r⟩ :: c.timeline ∧
      let e := d.performAct (cyc + 1) ⟨cyc + 1, q, .pdone p rows r⟩
      d.SameRegisters e ∧ (∀ m, m ≠ .acc → m ≠ dm → e.mem m = d.mem m) ∧ e.mxret.getLsbD 63 = true ∧
      (fijHits c.fij p = false → (c.mem dm).wf = true → ∀ i j y, i < p.m → j < p.n → y < af.bytes →
        ((e.mem dm).get (cellAddr p.mr p.f64 p.dest i j + y)).toNat =
          convertTo af (result i j) .rne false / 256 ^ y % 256))

/-- Composition over a chain in canonical order: with no record an element keeps its base value; a last record that
does not cover the element changes nothing; one that covers it gives, from the value beneath and its own datum (zero
where the record is poisoned), the overwrite, the exact sum (saturated where SAT is set), the larger or the smaller,
each converted once to the tensor's format, or the bitwise combination; a Restore gives the value that stood beneath
its original, converted. A granule read has 256 bytes: each element of the tensor is composed over its base, whose
bytes in a dead unit or a poisoned line are zero, with the records of the granule's chain that the read admits; bytes
that are no element are zero. (R211, R226, R233, R254, R367) -/
def Obligations.CompositionOfPatches : Prop :=
  (∀ (tf : Fmt) (e v : Nat),
    let comp := fun (rs : List PatchRec) => (composeOver tf e rs v []).1
    comp [] = v ∧
    (∀ rs r, r.at? e = none → comp (rs ++ [r]) = comp rs) ∧
    (∀ rs r i, r.at? e = some i →
      let x := if r.poisoned then 0 else r.data.getD i 0
      let df := if tf = .n64 then Fmt.n64 else (Fmt.ofCode r.ef).getD tf
      let under := tf.value (comp rs)
      let gives := fun (kind : PKind) (n : Nat) => r.kind = kind → comp (rs ++ [r]) = n
      gives .st (convertTo tf (df.value x) .rne false) ∧
      gives .add (convertTo tf (under.add false (df.value x)) .rne r.sat) ∧
      gives .max (convertTo tf (under.larger (df.value x)) .rne false) ∧
      gives .min (convertTo tf (under.smaller (df.value x)) .rne false) ∧
      gives .xor (comp rs ^^^ x) ∧ gives .or (comp rs ||| x) ∧ gives .and (comp rs &&& x) ∧
      (∀ pre o post, rs = pre ++ o :: post → o.name = r.name &&& ~~~1#64 → (o.at? e).isSome →
        (∀ y ∈ post, y.name ≠ r.name &&& ~~~1#64) →
        gives .restore (convertTo tf (tf.value (comp pre)) .rne false)))) ∧
  (∀ (s : State) (t : Tensor) (va key : Nat) (incl : PatchRec → Bool), t.size ∈ [1, 2, 4, 8] →
    let out := s.composeGranule t va key incl
    let base := fun (x : Nat) =>
      if s.dead.contains (x / 2 ^ 57, x % 2 ^ 57 / 4096) || s.gpoison.contains (x / 64) then 0 else (s.gmem.get x).toNat
    let elem := fun (k : Nat) => ((List.range t.size).map fun y => (out.bytes.getD (t.size * k + y) 0).toNat * 256 ^ y).sum
    out.bytes.length = 256 ∧
    ∀ k, k < 256 / t.size →
      let a := va + t.size * k
      (t.baseva ≤ va → a < t.baseva + t.count * t.size → elem k = (composeOver t.fmt ((a - t.baseva) / t.size)
        ((t.chainAt ((va - t.baseva) / 256)).filter incl)
        ((List.range t.size).map fun y => base (key + t.size * k + y) * 256 ^ y).sum []).1 % 256 ^ t.size) ∧
      (a < t.baseva ∨ t.baseva + t.count * t.size ≤ a → elem k = 0))
end

