-- ==== Sys2Proof/Laws/State.lean ====
section
/-! SUPPORT. What the named updates leave as it was, field by field. -/

namespace Sys2Proof.Machine

/-! An event put on the agenda -/

@[simp] theorem State.schedule_core (s : State) (t : Nat) (e : Instr) : (s.schedule t e).core = s.core := rfl
@[simp] theorem State.schedule_trunk (s : State) (t : Nat) (e : Instr) : (s.schedule t e).trunk = s.trunk := rfl
@[simp] theorem State.schedule_boot (s : State) (t : Nat) (e : Instr) : (s.schedule t e).boot = s.boot := rfl
@[simp] theorem State.schedule_bubble (s : State) (t : Nat) (e : Instr) : (s.schedule t e).bubble = s.bubble := rfl
@[simp] theorem State.schedule_drawerL (s : State) (t : Nat) (e : Instr) : (s.schedule t e).drawerL = s.drawerL := rfl
@[simp] theorem State.schedule_slots (s : State) (t : Nat) (e : Instr) : (s.schedule t e).slots = s.slots := rfl
@[simp] theorem State.schedule_retrainLimit (s : State) (t : Nat) (e : Instr) : (s.schedule t e).retrainLimit = s.retrainLimit := rfl
@[simp] theorem State.schedule_origin (s : State) (t : Nat) (e : Instr) : (s.schedule t e).origin = s.origin := rfl
@[simp] theorem State.schedule_rollbackArea (s : State) (t : Nat) (e : Instr) : (s.schedule t e).rollbackArea = s.rollbackArea := rfl
@[simp] theorem State.schedule_spillQueueSize (s : State) (t : Nat) (e : Instr) : (s.schedule t e).spillQueueSize = s.spillQueueSize := rfl
@[simp] theorem State.schedule_areas (s : State) (t : Nat) (e : Instr) : (s.schedule t e).areas = s.areas := rfl
@[simp] theorem State.schedule_monotonic (s : State) (t : Nat) (e : Instr) : (s.schedule t e).monotonic = s.monotonic := rfl
@[simp] theorem State.schedule_measurements (s : State) (t : Nat) (e : Instr) : (s.schedule t e).measurements = s.measurements := rfl
@[simp] theorem State.schedule_records (s : State) (t : Nat) (e : Instr) : (s.schedule t e).records = s.records := rfl
@[simp] theorem State.schedule_attestKey (s : State) (t : Nat) (e : Instr) : (s.schedule t e).attestKey = s.attestKey := rfl
@[simp] theorem State.schedule_identity (s : State) (t : Nat) (e : Instr) : (s.schedule t e).identity = s.identity := rfl
@[simp] theorem State.schedule_identityCert (s : State) (t : Nat) (e : Instr) : (s.schedule t e).identityCert = s.identityCert := rfl
@[simp] theorem State.schedule_planes (s : State) (t : Nat) (e : Instr) : (s.schedule t e).planes = s.planes := rfl
@[simp] theorem State.schedule_planeOf (s : State) (t : Nat) (e : Instr) : (s.schedule t e).planeOf = s.planeOf := rfl
@[simp] theorem State.schedule_gmem (s : State) (t : Nat) (e : Instr) : (s.schedule t e).gmem = s.gmem := rfl
@[simp] theorem State.schedule_gpoison (s : State) (t : Nat) (e : Instr) : (s.schedule t e).gpoison = s.gpoison := rfl
@[simp] theorem State.schedule_pages (s : State) (t : Nat) (e : Instr) : (s.schedule t e).pages = s.pages := rfl
@[simp] theorem State.schedule_tensors (s : State) (t : Nat) (e : Instr) : (s.schedule t e).tensors = s.tensors := rfl
@[simp] theorem State.schedule_cache (s : State) (t : Nat) (e : Instr) : (s.schedule t e).cache = s.cache := rfl
@[simp] theorem State.schedule_dead (s : State) (t : Nat) (e : Instr) : (s.schedule t e).dead = s.dead := rfl
@[simp] theorem State.schedule_pfops (s : State) (t : Nat) (e : Instr) : (s.schedule t e).pfops = s.pfops := rfl
@[simp] theorem State.schedule_groupsDown (s : State) (t : Nat) (e : Instr) : (s.schedule t e).groupsDown = s.groupsDown := rfl
@[simp] theorem State.schedule_retraining (s : State) (t : Nat) (e : Instr) : (s.schedule t e).retraining = s.retraining := rfl
@[simp] theorem State.schedule_slotWrites (s : State) (t : Nat) (e : Instr) : (s.schedule t e).slotWrites = s.slotWrites := rfl
@[simp] theorem State.schedule_shards (s : State) (t : Nat) (e : Instr) : (s.schedule t e).shards = s.shards := rfl
@[simp] theorem State.schedule_checkpoints (s : State) (t : Nat) (e : Instr) : (s.schedule t e).checkpoints = s.checkpoints := rfl
@[simp] theorem State.schedule_manifests (s : State) (t : Nat) (e : Instr) : (s.schedule t e).manifests = s.manifests := rfl
@[simp] theorem State.schedule_relHist (s : State) (t : Nat) (e : Instr) : (s.schedule t e).relHist = s.relHist := rfl
@[simp] theorem State.schedule_flags (s : State) (t : Nat) (e : Instr) : (s.schedule t e).flags = s.flags := rfl
@[simp] theorem State.schedule_flagHist (s : State) (t : Nat) (e : Instr) : (s.schedule t e).flagHist = s.flagHist := rfl
@[simp] theorem State.schedule_log (s : State) (t : Nat) (e : Instr) : (s.schedule t e).log = s.log := rfl
@[simp] theorem State.schedule_opLog (s : State) (t : Nat) (e : Instr) : (s.schedule t e).opLog = s.opLog := rfl
@[simp] theorem State.schedule_sliceLog (s : State) (t : Nat) (e : Instr) : (s.schedule t e).sliceLog = s.sliceLog := rfl
@[simp] theorem State.schedule_madeLog (s : State) (t : Nat) (e : Instr) : (s.schedule t e).madeLog = s.madeLog := rfl
@[simp] theorem State.schedule_past (s : State) (t : Nat) (e : Instr) : (s.schedule t e).past = s.past := rfl
@[simp] theorem State.schedule_freedLog (s : State) (t : Nat) (e : Instr) : (s.schedule t e).freedLog = s.freedLog := rfl
@[simp] theorem State.schedule_readLog (s : State) (t : Nat) (e : Instr) : (s.schedule t e).readLog = s.readLog := rfl
@[simp] theorem State.schedule_waitLog (s : State) (t : Nat) (e : Instr) : (s.schedule t e).waitLog = s.waitLog := rfl
@[simp] theorem State.schedule_revLog (s : State) (t : Nat) (e : Instr) : (s.schedule t e).revLog = s.revLog := rfl
@[simp] theorem State.schedule_stallLog (s : State) (t : Nat) (e : Instr) : (s.schedule t e).stallLog = s.stallLog := rfl
@[simp] theorem State.schedule_queueLog (s : State) (t : Nat) (e : Instr) : (s.schedule t e).queueLog = s.queueLog := rfl
@[simp] theorem State.schedule_markers (s : State) (t : Nat) (e : Instr) : (s.schedule t e).markers = s.markers := rfl
@[simp] theorem State.schedule_replayUntil (s : State) (t : Nat) (e : Instr) : (s.schedule t e).replayUntil = s.replayUntil := rfl
@[simp] theorem State.schedule_faultBuf (s : State) (t : Nat) (e : Instr) : (s.schedule t e).faultBuf = s.faultBuf := rfl
@[simp] theorem State.schedule_recSeq (s : State) (t : Nat) (e : Instr) : (s.schedule t e).recSeq = s.recSeq := rfl
@[simp] theorem State.schedule_overflow (s : State) (t : Nat) (e : Instr) : (s.schedule t e).overflow = s.overflow := rfl
@[simp] theorem State.schedule_infoDropped (s : State) (t : Nat) (e : Instr) : (s.schedule t e).infoDropped = s.infoDropped := rfl
@[simp] theorem State.schedule_overflowTold (s : State) (t : Nat) (e : Instr) : (s.schedule t e).overflowTold = s.overflowTold := rfl
@[simp] theorem State.schedule_launches (s : State) (t : Nat) (e : Instr) : (s.schedule t e).launches = s.launches := rfl
@[simp] theorem State.schedule_task (s : State) (t : Nat) (e : Instr) : (s.schedule t e).task = s.task := rfl
@[simp] theorem State.schedule_retiring (s : State) (t : Nat) (e : Instr) : (s.schedule t e).retiring = s.retiring := rfl
@[simp] theorem State.schedule_contextLaunch (s : State) (t : Nat) (e : Instr) : (s.schedule t e).contextLaunch = s.contextLaunch := rfl
@[simp] theorem State.schedule_pool (s : State) (t : Nat) (e : Instr) : (s.schedule t e).pool = s.pool := rfl
@[simp] theorem State.schedule_spillQ (s : State) (t : Nat) (e : Instr) : (s.schedule t e).spillQ = s.spillQ := rfl
@[simp] theorem State.schedule_journal (s : State) (t : Nat) (e : Instr) : (s.schedule t e).journal = s.journal := rfl
@[simp] theorem State.schedule_jseq (s : State) (t : Nat) (e : Instr) : (s.schedule t e).jseq = s.jseq := rfl
@[simp] theorem State.schedule_crowns (s : State) (t : Nat) (e : Instr) : (s.schedule t e).crowns = s.crowns := rfl
@[simp] theorem State.schedule_crownDown (s : State) (t : Nat) (e : Instr) : (s.schedule t e).crownDown = s.crownDown := rfl
@[simp] theorem State.schedule_takeoverAt (s : State) (t : Nat) (e : Instr) : (s.schedule t e).takeoverAt = s.takeoverAt := rfl
@[simp] theorem State.schedule_heldRetirements (s : State) (t : Nat) (e : Instr) : (s.schedule t e).heldRetirements = s.heldRetirements := rfl
@[simp] theorem State.schedule_dispatchAt (s : State) (t : Nat) (e : Instr) : (s.schedule t e).dispatchAt = s.dispatchAt := rfl
@[simp] theorem State.schedule_loadAt (s : State) (t : Nat) (e : Instr) : (s.schedule t e).loadAt = s.loadAt := rfl
@[simp] theorem State.schedule_saved (s : State) (t : Nat) (e : Instr) : (s.schedule t e).saved = s.saved := rfl
@[simp] theorem State.schedule_snaps (s : State) (t : Nat) (e : Instr) : (s.schedule t e).snaps = s.snaps := rfl
@[simp] theorem State.schedule_tenants (s : State) (t : Nat) (e : Instr) : (s.schedule t e).tenants = s.tenants := rfl
@[simp] theorem State.schedule_hmaj (s : State) (t : Nat) (e : Instr) : (s.schedule t e).hmaj = s.hmaj := rfl
@[simp] theorem State.schedule_hmin (s : State) (t : Nat) (e : Instr) : (s.schedule t e).hmin = s.hmin := rfl
@[simp] theorem State.schedule_hacc (s : State) (t : Nat) (e : Instr) : (s.schedule t e).hacc = s.hacc := rfl
@[simp] theorem State.schedule_stations (s : State) (t : Nat) (e : Instr) : (s.schedule t e).stations = s.stations := rfl
@[simp] theorem State.schedule_members (s : State) (t : Nat) (e : Instr) : (s.schedule t e).members = s.members := rfl
@[simp] theorem State.schedule_podAcks (s : State) (t : Nat) (e : Instr) : (s.schedule t e).podAcks = s.podAcks := rfl
@[simp] theorem State.schedule_heldPackets (s : State) (t : Nat) (e : Instr) : (s.schedule t e).heldPackets = s.heldPackets := rfl
@[simp] theorem State.schedule_mgmtLog (s : State) (t : Nat) (e : Instr) : (s.schedule t e).mgmtLog = s.mgmtLog := rfl
@[simp] theorem State.schedule_mgmtReports (s : State) (t : Nat) (e : Instr) : (s.schedule t e).mgmtReports = s.mgmtReports := rfl
@[simp] theorem State.schedule_debugger (s : State) (t : Nat) (e : Instr) : (s.schedule t e).debugger = s.debugger := rfl
@[simp] theorem State.schedule_free (s : State) (t : Nat) (e : Instr) : (s.schedule t e).free = s.free := rfl

/-! An act put on the timeline of the core -/

@[simp] theorem Core.sched_s (c : Core) (t : Nat) (a : Act) : (c.sched t a).s = c.s := rfl
@[simp] theorem Core.sched_l (c : Core) (t : Nat) (a : Act) : (c.sched t a).l = c.l := rfl
@[simp] theorem Core.sched_m (c : Core) (t : Nat) (a : Act) : (c.sched t a).m = c.m := rfl
@[simp] theorem Core.sched_w (c : Core) (t : Nat) (a : Act) : (c.sched t a).w = c.w := rfl
@[simp] theorem Core.sched_shadow (c : Core) (t : Nat) (a : Act) : (c.sched t a).shadow = c.shadow := rfl
@[simp] theorem Core.sched_y (c : Core) (t : Nat) (a : Act) : (c.sched t a).y = c.y := rfl
@[simp] theorem Core.sched_h (c : Core) (t : Nat) (a : Act) : (c.sched t a).h = c.h := rfl
@[simp] theorem Core.sched_k (c : Core) (t : Nat) (a : Act) : (c.sched t a).k = c.k := rfl
@[simp] theorem Core.sched_q (c : Core) (t : Nat) (a : Act) : (c.sched t a).q = c.q := rfl
@[simp] theorem Core.sched_cb (c : Core) (t : Nat) (a : Act) : (c.sched t a).cb = c.cb := rfl
@[simp] theorem Core.sched_clag (c : Core) (t : Nat) (a : Act) : (c.sched t a).clag = c.clag := rfl
@[simp] theorem Core.sched_cir (c : Core) (t : Nat) (a : Act) : (c.sched t a).cir = c.cir := rfl
@[simp] theorem Core.sched_nest (c : Core) (t : Nat) (a : Act) : (c.sched t a).nest = c.nest := rfl
@[simp] theorem Core.sched_lcore (c : Core) (t : Nat) (a : Act) : (c.sched t a).lcore = c.lcore := rfl
@[simp] theorem Core.sched_pcore (c : Core) (t : Nat) (a : Act) : (c.sched t a).pcore = c.pcore := rfl
@[simp] theorem Core.sched_plane (c : Core) (t : Nat) (a : Act) : (c.sched t a).plane = c.plane := rfl
@[simp] theorem Core.sched_prio (c : Core) (t : Nat) (a : Act) : (c.sched t a).prio = c.prio := rfl
@[simp] theorem Core.sched_tenant (c : Core) (t : Nat) (a : Act) : (c.sched t a).tenant = c.tenant := rfl
@[simp] theorem Core.sched_traprec (c : Core) (t : Nat) (a : Act) : (c.sched t a).traprec = c.traprec := rfl
@[simp] theorem Core.sched_mxret (c : Core) (t : Nat) (a : Act) : (c.sched t a).mxret = c.mxret := rfl
@[simp] theorem Core.sched_ftab (c : Core) (t : Nat) (a : Act) : (c.sched t a).ftab = c.ftab := rfl
@[simp] theorem Core.sched_tol (c : Core) (t : Nat) (a : Act) : (c.sched t a).tol = c.tol := rfl
@[simp] theorem Core.sched_fij (c : Core) (t : Nat) (a : Act) : (c.sched t a).fij = c.fij := rfl
@[simp] theorem Core.sched_kend (c : Core) (t : Nat) (a : Act) : (c.sched t a).kend = c.kend := rfl
@[simp] theorem Core.sched_ls (c : Core) (t : Nat) (a : Act) : (c.sched t a).ls = c.ls := rfl
@[simp] theorem Core.sched_acc (c : Core) (t : Nat) (a : Act) : (c.sched t a).acc = c.acc := rfl
@[simp] theorem Core.sched_mr (c : Core) (t : Nat) (a : Act) : (c.sched t a).mr = c.mr := rfl
@[simp] theorem Core.sched_scale (c : Core) (t : Nat) (a : Act) : (c.sched t a).scale = c.scale := rfl
@[simp] theorem Core.sched_cbmem (c : Core) (t : Nat) (a : Act) : (c.sched t a).cbmem = c.cbmem := rfl
@[simp] theorem Core.sched_poison (c : Core) (t : Nat) (a : Act) : (c.sched t a).poison = c.poison := rfl
@[simp] theorem Core.sched_allocated (c : Core) (t : Nat) (a : Act) : (c.sched t a).allocated = c.allocated := rfl
@[simp] theorem Core.sched_owner (c : Core) (t : Nat) (a : Act) : (c.sched t a).owner = c.owner := rfl
@[simp] theorem Core.sched_accLanes (c : Core) (t : Nat) (a : Act) : (c.sched t a).accLanes = c.accLanes := rfl
@[simp] theorem Core.sched_mrLanes (c : Core) (t : Nat) (a : Act) : (c.sched t a).mrLanes = c.mrLanes := rfl
@[simp] theorem Core.sched_retry (c : Core) (t : Nat) (a : Act) : (c.sched t a).retry = c.retry := rfl
@[simp] theorem Core.sched_banks (c : Core) (t : Nat) (a : Act) : (c.sched t a).banks = c.banks := rfl
@[simp] theorem Core.sched_regions (c : Core) (t : Nat) (a : Act) : (c.sched t a).regions = c.regions := rfl
@[simp] theorem Core.sched_phase (c : Core) (t : Nat) (a : Act) : (c.sched t a).phase = c.phase := rfl
@[simp] theorem Core.sched_expTag (c : Core) (t : Nat) (a : Act) : (c.sched t a).expTag = c.expTag := rfl
@[simp] theorem Core.sched_swapCore (c : Core) (t : Nat) (a : Act) : (c.sched t a).swapCore = c.swapCore := rfl
@[simp] theorem Core.sched_swapTrunk (c : Core) (t : Nat) (a : Act) : (c.sched t a).swapTrunk = c.swapTrunk := rfl
@[simp] theorem Core.sched_fronts (c : Core) (t : Nat) (a : Act) : (c.sched t a).fronts = c.fronts := rfl
@[simp] theorem Core.sched_made (c : Core) (t : Nat) (a : Act) : (c.sched t a).made = c.made := rfl
@[simp] theorem Core.sched_calendar (c : Core) (t : Nat) (a : Act) : (c.sched t a).calendar = c.calendar := rfl
@[simp] theorem Core.sched_bufs (c : Core) (t : Nat) (a : Act) : (c.sched t a).bufs = c.bufs := rfl
@[simp] theorem Core.sched_seq (c : Core) (t : Nat) (a : Act) : (c.sched t a).seq = c.seq := rfl
@[simp] theorem Core.sched_vecFree (c : Core) (t : Nat) (a : Act) : (c.sched t a).vecFree = c.vecFree := rfl
@[simp] theorem Core.sched_mxFree (c : Core) (t : Nat) (a : Act) : (c.sched t a).mxFree = c.mxFree := rfl
@[simp] theorem Core.sched_spillFree (c : Core) (t : Nat) (a : Act) : (c.sched t a).spillFree = c.spillFree := rfl
@[simp] theorem Core.sched_patchFree (c : Core) (t : Nat) (a : Act) : (c.sched t a).patchFree = c.patchFree := rfl
@[simp] theorem Core.sched_copyQ (c : Core) (t : Nat) (a : Act) : (c.sched t a).copyQ = c.copyQ := rfl
@[simp] theorem Core.sched_fills (c : Core) (t : Nat) (a : Act) : (c.sched t a).fills = c.fills := rfl
@[simp] theorem Core.sched_pseq (c : Core) (t : Nat) (a : Act) : (c.sched t a).pseq = c.pseq := rfl
@[simp] theorem Core.sched_kseq (c : Core) (t : Nat) (a : Act) : (c.sched t a).kseq = c.kseq := rfl
@[simp] theorem Core.sched_ops (c : Core) (t : Nat) (a : Act) : (c.sched t a).ops = c.ops := rfl
@[simp] theorem Core.sched_mine (c : Core) (t : Nat) (a : Act) : (c.sched t a).mine = c.mine := rfl
@[simp] theorem Core.sched_lastAnswer (c : Core) (t : Nat) (a : Act) : (c.sched t a).lastAnswer = c.lastAnswer := rfl
@[simp] theorem Core.sched_releases (c : Core) (t : Nat) (a : Act) : (c.sched t a).releases = c.releases := rfl
@[simp] theorem Core.sched_observed (c : Core) (t : Nat) (a : Act) : (c.sched t a).observed = c.observed := rfl
@[simp] theorem Core.sched_pftok (c : Core) (t : Nat) (a : Act) : (c.sched t a).pftok = c.pftok := rfl
@[simp] theorem Core.sched_kick (c : Core) (t : Nat) (a : Act) : (c.sched t a).kick = c.kick := rfl
@[simp] theorem Core.sched_freeze (c : Core) (t : Nat) (a : Act) : (c.sched t a).freeze = c.freeze := rfl
@[simp] theorem Core.sched_faultQ (c : Core) (t : Nat) (a : Act) : (c.sched t a).faultQ = c.faultQ := rfl
@[simp] theorem Core.sched_waitQ (c : Core) (t : Nat) (a : Act) : (c.sched t a).waitQ = c.waitQ := rfl
@[simp] theorem Core.sched_handling (c : Core) (t : Nat) (a : Act) : (c.sched t a).handling = c.handling := rfl
@[simp] theorem Core.sched_handled (c : Core) (t : Nat) (a : Act) : (c.sched t a).handled = c.handled := rfl
@[simp] theorem Core.sched_faultAt (c : Core) (t : Nat) (a : Act) : (c.sched t a).faultAt = c.faultAt := rfl
@[simp] theorem Core.sched_heldRec (c : Core) (t : Nat) (a : Act) : (c.sched t a).heldRec = c.heldRec := rfl
@[simp] theorem Core.sched_pending (c : Core) (t : Nat) (a : Act) : (c.sched t a).pending = c.pending := rfl
@[simp] theorem Core.sched_yielded (c : Core) (t : Nat) (a : Act) : (c.sched t a).yielded = c.yielded := rfl
@[simp] theorem Core.sched_cursor (c : Core) (t : Nat) (a : Act) : (c.sched t a).cursor = c.cursor := rfl
@[simp] theorem Core.sched_issuing (c : Core) (t : Nat) (a : Act) : (c.sched t a).issuing = c.issuing := rfl
@[simp] theorem Core.sched_holdOthers (c : Core) (t : Nat) (a : Act) : (c.sched t a).holdOthers = c.holdOthers := rfl
@[simp] theorem Core.sched_qjump (c : Core) (t : Nat) (a : Act) : (c.sched t a).qjump = c.qjump := rfl
@[simp] theorem Core.sched_phaseIdx (c : Core) (t : Nat) (a : Act) : (c.sched t a).phaseIdx = c.phaseIdx := rfl
@[simp] theorem Core.sched_touched (c : Core) (t : Nat) (a : Act) : (c.sched t a).touched = c.touched := rfl
@[simp] theorem Core.sched_protectedPhase (c : Core) (t : Nat) (a : Act) : (c.sched t a).protectedPhase = c.protectedPhase := rfl
@[simp] theorem Core.sched_stepRem (c : Core) (t : Nat) (a : Act) : (c.sched t a).stepRem = c.stepRem := rfl
@[simp] theorem State.after_trunk (s : State) (i : Issue) (o : Nat) (a : Act) : (s.after i o a).trunk = s.trunk := rfl
@[simp] theorem State.after_boot (s : State) (i : Issue) (o : Nat) (a : Act) : (s.after i o a).boot = s.boot := rfl
@[simp] theorem State.after_bubble (s : State) (i : Issue) (o : Nat) (a : Act) : (s.after i o a).bubble = s.bubble := rfl
@[simp] theorem State.after_drawerL (s : State) (i : Issue) (o : Nat) (a : Act) : (s.after i o a).drawerL = s.drawerL := rfl
@[simp] theorem State.after_slots (s : State) (i : Issue) (o : Nat) (a : Act) : (s.after i o a).slots = s.slots := rfl
@[simp] theorem State.after_retrainLimit (s : State) (i : Issue) (o : Nat) (a : Act) : (s.after i o a).retrainLimit = s.retrainLimit := rfl
@[simp] theorem State.after_origin (s : State) (i : Issue) (o : Nat) (a : Act) : (s.after i o a).origin = s.origin := rfl
@[simp] theorem State.after_rollbackArea (s : State) (i : Issue) (o : Nat) (a : Act) : (s.after i o a).rollbackArea = s.rollbackArea := rfl
@[simp] theorem State.after_spillQueueSize (s : State) (i : Issue) (o : Nat) (a : Act) : (s.after i o a).spillQueueSize = s.spillQueueSize := rfl
@[simp] theorem State.after_areas (s : State) (i : Issue) (o : Nat) (a : Act) : (s.after i o a).areas = s.areas := rfl
@[simp] theorem State.after_monotonic (s : State) (i : Issue) (o : Nat) (a : Act) : (s.after i o a).monotonic = s.monotonic := rfl
@[simp] theorem State.after_measurements (s : State) (i : Issue) (o : Nat) (a : Act) : (s.after i o a).measurements = s.measurements := rfl
@[simp] theorem State.after_records (s : State) (i : Issue) (o : Nat) (a : Act) : (s.after i o a).records = s.records := rfl
@[simp] theorem State.after_attestKey (s : State) (i : Issue) (o : Nat) (a : Act) : (s.after i o a).attestKey = s.attestKey := rfl
@[simp] theorem State.after_identity (s : State) (i : Issue) (o : Nat) (a : Act) : (s.after i o a).identity = s.identity := rfl
@[simp] theorem State.after_identityCert (s : State) (i : Issue) (o : Nat) (a : Act) : (s.after i o a).identityCert = s.identityCert := rfl
@[simp] theorem State.after_planes (s : State) (i : Issue) (o : Nat) (a : Act) : (s.after i o a).planes = s.planes := rfl
@[simp] theorem State.after_planeOf (s : State) (i : Issue) (o : Nat) (a : Act) : (s.after i o a).planeOf = s.planeOf := rfl
@[simp] theorem State.after_gmem (s : State) (i : Issue) (o : Nat) (a : Act) : (s.after i o a).gmem = s.gmem := rfl
@[simp] theorem State.after_gpoison (s : State) (i : Issue) (o : Nat) (a : Act) : (s.after i o a).gpoison = s.gpoison := rfl
@[simp] theorem State.after_pages (s : State) (i : Issue) (o : Nat) (a : Act) : (s.after i o a).pages = s.pages := rfl
@[simp] theorem State.after_tensors (s : State) (i : Issue) (o : Nat) (a : Act) : (s.after i o a).tensors = s.tensors := rfl
@[simp] theorem State.after_cache (s : State) (i : Issue) (o : Nat) (a : Act) : (s.after i o a).cache = s.cache := rfl
@[simp] theorem State.after_dead (s : State) (i : Issue) (o : Nat) (a : Act) : (s.after i o a).dead = s.dead := rfl
@[simp] theorem State.after_pfops (s : State) (i : Issue) (o : Nat) (a : Act) : (s.after i o a).pfops = s.pfops := rfl
@[simp] theorem State.after_groupsDown (s : State) (i : Issue) (o : Nat) (a : Act) : (s.after i o a).groupsDown = s.groupsDown := rfl
@[simp] theorem State.after_retraining (s : State) (i : Issue) (o : Nat) (a : Act) : (s.after i o a).retraining = s.retraining := rfl
@[simp] theorem State.after_slotWrites (s : State) (i : Issue) (o : Nat) (a : Act) : (s.after i o a).slotWrites = s.slotWrites := rfl
@[simp] theorem State.after_shards (s : State) (i : Issue) (o : Nat) (a : Act) : (s.after i o a).shards = s.shards := rfl
@[simp] theorem State.after_checkpoints (s : State) (i : Issue) (o : Nat) (a : Act) : (s.after i o a).checkpoints = s.checkpoints := rfl
@[simp] theorem State.after_manifests (s : State) (i : Issue) (o : Nat) (a : Act) : (s.after i o a).manifests = s.manifests := rfl
@[simp] theorem State.after_relHist (s : State) (i : Issue) (o : Nat) (a : Act) : (s.after i o a).relHist = s.relHist := rfl
@[simp] theorem State.after_flags (s : State) (i : Issue) (o : Nat) (a : Act) : (s.after i o a).flags = s.flags := rfl
@[simp] theorem State.after_flagHist (s : State) (i : Issue) (o : Nat) (a : Act) : (s.after i o a).flagHist = s.flagHist := rfl
@[simp] theorem State.after_log (s : State) (i : Issue) (o : Nat) (a : Act) : (s.after i o a).log = s.log := rfl
@[simp] theorem State.after_opLog (s : State) (i : Issue) (o : Nat) (a : Act) : (s.after i o a).opLog = s.opLog := rfl
@[simp] theorem State.after_sliceLog (s : State) (i : Issue) (o : Nat) (a : Act) : (s.after i o a).sliceLog = s.sliceLog := rfl
@[simp] theorem State.after_madeLog (s : State) (i : Issue) (o : Nat) (a : Act) : (s.after i o a).madeLog = s.madeLog := rfl
@[simp] theorem State.after_past (s : State) (i : Issue) (o : Nat) (a : Act) : (s.after i o a).past = s.past := rfl
@[simp] theorem State.after_freedLog (s : State) (i : Issue) (o : Nat) (a : Act) : (s.after i o a).freedLog = s.freedLog := rfl
@[simp] theorem State.after_readLog (s : State) (i : Issue) (o : Nat) (a : Act) : (s.after i o a).readLog = s.readLog := rfl
@[simp] theorem State.after_waitLog (s : State) (i : Issue) (o : Nat) (a : Act) : (s.after i o a).waitLog = s.waitLog := rfl
@[simp] theorem State.after_revLog (s : State) (i : Issue) (o : Nat) (a : Act) : (s.after i o a).revLog = s.revLog := rfl
@[simp] theorem State.after_stallLog (s : State) (i : Issue) (o : Nat) (a : Act) : (s.after i o a).stallLog = s.stallLog := rfl
@[simp] theorem State.after_queueLog (s : State) (i : Issue) (o : Nat) (a : Act) : (s.after i o a).queueLog = s.queueLog := rfl
@[simp] theorem State.after_markers (s : State) (i : Issue) (o : Nat) (a : Act) : (s.after i o a).markers = s.markers := rfl
@[simp] theorem State.after_replayUntil (s : State) (i : Issue) (o : Nat) (a : Act) : (s.after i o a).replayUntil = s.replayUntil := rfl
@[simp] theorem State.after_faultBuf (s : State) (i : Issue) (o : Nat) (a : Act) : (s.after i o a).faultBuf = s.faultBuf := rfl
@[simp] theorem State.after_recSeq (s : State) (i : Issue) (o : Nat) (a : Act) : (s.after i o a).recSeq = s.recSeq := rfl
@[simp] theorem State.after_overflow (s : State) (i : Issue) (o : Nat) (a : Act) : (s.after i o a).overflow = s.overflow := rfl
@[simp] theorem State.after_infoDropped (s : State) (i : Issue) (o : Nat) (a : Act) : (s.after i o a).infoDropped = s.infoDropped := rfl
@[simp] theorem State.after_overflowTold (s : State) (i : Issue) (o : Nat) (a : Act) : (s.after i o a).overflowTold = s.overflowTold := rfl
@[simp] theorem State.after_launches (s : State) (i : Issue) (o : Nat) (a : Act) : (s.after i o a).launches = s.launches := rfl
@[simp] theorem State.after_task (s : State) (i : Issue) (o : Nat) (a : Act) : (s.after i o a).task = s.task := rfl
@[simp] theorem State.after_retiring (s : State) (i : Issue) (o : Nat) (a : Act) : (s.after i o a).retiring = s.retiring := rfl
@[simp] theorem State.after_contextLaunch (s : State) (i : Issue) (o : Nat) (a : Act) : (s.after i o a).contextLaunch = s.contextLaunch := rfl
@[simp] theorem State.after_pool (s : State) (i : Issue) (o : Nat) (a : Act) : (s.after i o a).pool = s.pool := rfl
@[simp] theorem State.after_spillQ (s : State) (i : Issue) (o : Nat) (a : Act) : (s.after i o a).spillQ = s.spillQ := rfl
@[simp] theorem State.after_journal (s : State) (i : Issue) (o : Nat) (a : Act) : (s.after i o a).journal = s.journal := rfl
@[simp] theorem State.after_jseq (s : State) (i : Issue) (o : Nat) (a : Act) : (s.after i o a).jseq = s.jseq := rfl
@[simp] theorem State.after_crowns (s : State) (i : Issue) (o : Nat) (a : Act) : (s.after i o a).crowns = s.crowns := rfl
@[simp] theorem State.after_crownDown (s : State) (i : Issue) (o : Nat) (a : Act) : (s.after i o a).crownDown = s.crownDown := rfl
@[simp] theorem State.after_takeoverAt (s : State) (i : Issue) (o : Nat) (a : Act) : (s.after i o a).takeoverAt = s.takeoverAt := rfl
@[simp] theorem State.after_heldRetirements (s : State) (i : Issue) (o : Nat) (a : Act) : (s.after i o a).heldRetirements = s.heldRetirements := rfl
@[simp] theorem State.after_dispatchAt (s : State) (i : Issue) (o : Nat) (a : Act) : (s.after i o a).dispatchAt = s.dispatchAt := rfl
@[simp] theorem State.after_loadAt (s : State) (i : Issue) (o : Nat) (a : Act) : (s.after i o a).loadAt = s.loadAt := rfl
@[simp] theorem State.after_saved (s : State) (i : Issue) (o : Nat) (a : Act) : (s.after i o a).saved = s.saved := rfl
@[simp] theorem State.after_snaps (s : State) (i : Issue) (o : Nat) (a : Act) : (s.after i o a).snaps = s.snaps := rfl
@[simp] theorem State.after_tenants (s : State) (i : Issue) (o : Nat) (a : Act) : (s.after i o a).tenants = s.tenants := rfl
@[simp] theorem State.after_hmaj (s : State) (i : Issue) (o : Nat) (a : Act) : (s.after i o a).hmaj = s.hmaj := rfl
@[simp] theorem State.after_hmin (s : State) (i : Issue) (o : Nat) (a : Act) : (s.after i o a).hmin = s.hmin := rfl
@[simp] theorem State.after_hacc (s : State) (i : Issue) (o : Nat) (a : Act) : (s.after i o a).hacc = s.hacc := rfl
@[simp] theorem State.after_stations (s : State) (i : Issue) (o : Nat) (a : Act) : (s.after i o a).stations = s.stations := rfl
@[simp] theorem State.after_members (s : State) (i : Issue) (o : Nat) (a : Act) : (s.after i o a).members = s.members := rfl
@[simp] theorem State.after_podAcks (s : State) (i : Issue) (o : Nat) (a : Act) : (s.after i o a).podAcks = s.podAcks := rfl
@[simp] theorem State.after_heldPackets (s : State) (i : Issue) (o : Nat) (a : Act) : (s.after i o a).heldPackets = s.heldPackets := rfl
@[simp] theorem State.after_mgmtLog (s : State) (i : Issue) (o : Nat) (a : Act) : (s.after i o a).mgmtLog = s.mgmtLog := rfl
@[simp] theorem State.after_mgmtReports (s : State) (i : Issue) (o : Nat) (a : Act) : (s.after i o a).mgmtReports = s.mgmtReports := rfl
@[simp] theorem State.after_debugger (s : State) (i : Issue) (o : Nat) (a : Act) : (s.after i o a).debugger = s.debugger := rfl
@[simp] theorem State.after_agenda (s : State) (i : Issue) (o : Nat) (a : Act) : (s.after i o a).agenda = s.agenda := rfl
@[simp] theorem State.after_free (s : State) (i : Issue) (o : Nat) (a : Act) : (s.after i o a).free = s.free := rfl
@[simp] theorem State.after_core (s : State) (i : Issue) (o : Nat) (a : Act) : (s.after i o a).core = s.core.sched (i.t + o) a := rfl
@[simp] theorem Core.sched_timeline (c : Core) (t : Nat) (a : Act) : (c.sched t a).timeline = ⟨t, c.seq, a⟩ :: c.timeline := rfl

/-! A cluster of the core -/

@[simp] theorem State.setCl_trunk (s : State) (k : Cluster) (x : ClusterSt) : (s.setCl k x).trunk = s.trunk := rfl
@[simp] theorem State.setCl_boot (s : State) (k : Cluster) (x : ClusterSt) : (s.setCl k x).boot = s.boot := rfl
@[simp] theorem State.setCl_bubble (s : State) (k : Cluster) (x : ClusterSt) : (s.setCl k x).bubble = s.bubble := rfl
@[simp] theorem State.setCl_drawerL (s : State) (k : Cluster) (x : ClusterSt) : (s.setCl k x).drawerL = s.drawerL := rfl
@[simp] theorem State.setCl_slots (s : State) (k : Cluster) (x : ClusterSt) : (s.setCl k x).slots = s.slots := rfl
@[simp] theorem State.setCl_retrainLimit (s : State) (k : Cluster) (x : ClusterSt) : (s.setCl k x).retrainLimit = s.retrainLimit := rfl
@[simp] theorem State.setCl_origin (s : State) (k : Cluster) (x : ClusterSt) : (s.setCl k x).origin = s.origin := rfl
@[simp] theorem State.setCl_rollbackArea (s : State) (k : Cluster) (x : ClusterSt) : (s.setCl k x).rollbackArea = s.rollbackArea := rfl
@[simp] theorem State.setCl_spillQueueSize (s : State) (k : Cluster) (x : ClusterSt) : (s.setCl k x).spillQueueSize = s.spillQueueSize := rfl
@[simp] theorem State.setCl_areas (s : State) (k : Cluster) (x : ClusterSt) : (s.setCl k x).areas = s.areas := rfl
@[simp] theorem State.setCl_monotonic (s : State) (k : Cluster) (x : ClusterSt) : (s.setCl k x).monotonic = s.monotonic := rfl
@[simp] theorem State.setCl_measurements (s : State) (k : Cluster) (x : ClusterSt) : (s.setCl k x).measurements = s.measurements := rfl
@[simp] theorem State.setCl_records (s : State) (k : Cluster) (x : ClusterSt) : (s.setCl k x).records = s.records := rfl
@[simp] theorem State.setCl_attestKey (s : State) (k : Cluster) (x : ClusterSt) : (s.setCl k x).attestKey = s.attestKey := rfl
@[simp] theorem State.setCl_identity (s : State) (k : Cluster) (x : ClusterSt) : (s.setCl k x).identity = s.identity := rfl
@[simp] theorem State.setCl_identityCert (s : State) (k : Cluster) (x : ClusterSt) : (s.setCl k x).identityCert = s.identityCert := rfl
@[simp] theorem State.setCl_planes (s : State) (k : Cluster) (x : ClusterSt) : (s.setCl k x).planes = s.planes := rfl
@[simp] theorem State.setCl_planeOf (s : State) (k : Cluster) (x : ClusterSt) : (s.setCl k x).planeOf = s.planeOf := rfl
@[simp] theorem State.setCl_gmem (s : State) (k : Cluster) (x : ClusterSt) : (s.setCl k x).gmem = s.gmem := rfl
@[simp] theorem State.setCl_gpoison (s : State) (k : Cluster) (x : ClusterSt) : (s.setCl k x).gpoison = s.gpoison := rfl
@[simp] theorem State.setCl_pages (s : State) (k : Cluster) (x : ClusterSt) : (s.setCl k x).pages = s.pages := rfl
@[simp] theorem State.setCl_tensors (s : State) (k : Cluster) (x : ClusterSt) : (s.setCl k x).tensors = s.tensors := rfl
@[simp] theorem State.setCl_cache (s : State) (k : Cluster) (x : ClusterSt) : (s.setCl k x).cache = s.cache := rfl
@[simp] theorem State.setCl_dead (s : State) (k : Cluster) (x : ClusterSt) : (s.setCl k x).dead = s.dead := rfl
@[simp] theorem State.setCl_pfops (s : State) (k : Cluster) (x : ClusterSt) : (s.setCl k x).pfops = s.pfops := rfl
@[simp] theorem State.setCl_groupsDown (s : State) (k : Cluster) (x : ClusterSt) : (s.setCl k x).groupsDown = s.groupsDown := rfl
@[simp] theorem State.setCl_retraining (s : State) (k : Cluster) (x : ClusterSt) : (s.setCl k x).retraining = s.retraining := rfl
@[simp] theorem State.setCl_slotWrites (s : State) (k : Cluster) (x : ClusterSt) : (s.setCl k x).slotWrites = s.slotWrites := rfl
@[simp] theorem State.setCl_shards (s : State) (k : Cluster) (x : ClusterSt) : (s.setCl k x).shards = s.shards := rfl
@[simp] theorem State.setCl_checkpoints (s : State) (k : Cluster) (x : ClusterSt) : (s.setCl k x).checkpoints = s.checkpoints := rfl
@[simp] theorem State.setCl_manifests (s : State) (k : Cluster) (x : ClusterSt) : (s.setCl k x).manifests = s.manifests := rfl
@[simp] theorem State.setCl_relHist (s : State) (k : Cluster) (x : ClusterSt) : (s.setCl k x).relHist = s.relHist := rfl
@[simp] theorem State.setCl_flags (s : State) (k : Cluster) (x : ClusterSt) : (s.setCl k x).flags = s.flags := rfl
@[simp] theorem State.setCl_flagHist (s : State) (k : Cluster) (x : ClusterSt) : (s.setCl k x).flagHist = s.flagHist := rfl
@[simp] theorem State.setCl_log (s : State) (k : Cluster) (x : ClusterSt) : (s.setCl k x).log = s.log := rfl
@[simp] theorem State.setCl_opLog (s : State) (k : Cluster) (x : ClusterSt) : (s.setCl k x).opLog = s.opLog := rfl
@[simp] theorem State.setCl_sliceLog (s : State) (k : Cluster) (x : ClusterSt) : (s.setCl k x).sliceLog = s.sliceLog := rfl
@[simp] theorem State.setCl_madeLog (s : State) (k : Cluster) (x : ClusterSt) : (s.setCl k x).madeLog = s.madeLog := rfl
@[simp] theorem State.setCl_past (s : State) (k : Cluster) (x : ClusterSt) : (s.setCl k x).past = s.past := rfl
@[simp] theorem State.setCl_freedLog (s : State) (k : Cluster) (x : ClusterSt) : (s.setCl k x).freedLog = s.freedLog := rfl
@[simp] theorem State.setCl_readLog (s : State) (k : Cluster) (x : ClusterSt) : (s.setCl k x).readLog = s.readLog := rfl
@[simp] theorem State.setCl_waitLog (s : State) (k : Cluster) (x : ClusterSt) : (s.setCl k x).waitLog = s.waitLog := rfl
@[simp] theorem State.setCl_revLog (s : State) (k : Cluster) (x : ClusterSt) : (s.setCl k x).revLog = s.revLog := rfl
@[simp] theorem State.setCl_stallLog (s : State) (k : Cluster) (x : ClusterSt) : (s.setCl k x).stallLog = s.stallLog := rfl
@[simp] theorem State.setCl_queueLog (s : State) (k : Cluster) (x : ClusterSt) : (s.setCl k x).queueLog = s.queueLog := rfl
@[simp] theorem State.setCl_markers (s : State) (k : Cluster) (x : ClusterSt) : (s.setCl k x).markers = s.markers := rfl
@[simp] theorem State.setCl_replayUntil (s : State) (k : Cluster) (x : ClusterSt) : (s.setCl k x).replayUntil = s.replayUntil := rfl
@[simp] theorem State.setCl_faultBuf (s : State) (k : Cluster) (x : ClusterSt) : (s.setCl k x).faultBuf = s.faultBuf := rfl
@[simp] theorem State.setCl_recSeq (s : State) (k : Cluster) (x : ClusterSt) : (s.setCl k x).recSeq = s.recSeq := rfl
@[simp] theorem State.setCl_overflow (s : State) (k : Cluster) (x : ClusterSt) : (s.setCl k x).overflow = s.overflow := rfl
@[simp] theorem State.setCl_infoDropped (s : State) (k : Cluster) (x : ClusterSt) : (s.setCl k x).infoDropped = s.infoDropped := rfl
@[simp] theorem State.setCl_overflowTold (s : State) (k : Cluster) (x : ClusterSt) : (s.setCl k x).overflowTold = s.overflowTold := rfl
@[simp] theorem State.setCl_launches (s : State) (k : Cluster) (x : ClusterSt) : (s.setCl k x).launches = s.launches := rfl
@[simp] theorem State.setCl_task (s : State) (k : Cluster) (x : ClusterSt) : (s.setCl k x).task = s.task := rfl
@[simp] theorem State.setCl_retiring (s : State) (k : Cluster) (x : ClusterSt) : (s.setCl k x).retiring = s.retiring := rfl
@[simp] theorem State.setCl_contextLaunch (s : State) (k : Cluster) (x : ClusterSt) : (s.setCl k x).contextLaunch = s.contextLaunch := rfl
@[simp] theorem State.setCl_pool (s : State) (k : Cluster) (x : ClusterSt) : (s.setCl k x).pool = s.pool := rfl
@[simp] theorem State.setCl_spillQ (s : State) (k : Cluster) (x : ClusterSt) : (s.setCl k x).spillQ = s.spillQ := rfl
@[simp] theorem State.setCl_journal (s : State) (k : Cluster) (x : ClusterSt) : (s.setCl k x).journal = s.journal := rfl
@[simp] theorem State.setCl_jseq (s : State) (k : Cluster) (x : ClusterSt) : (s.setCl k x).jseq = s.jseq := rfl
@[simp] theorem State.setCl_crowns (s : State) (k : Cluster) (x : ClusterSt) : (s.setCl k x).crowns = s.crowns := rfl
@[simp] theorem State.setCl_crownDown (s : State) (k : Cluster) (x : ClusterSt) : (s.setCl k x).crownDown = s.crownDown := rfl
@[simp] theorem State.setCl_takeoverAt (s : State) (k : Cluster) (x : ClusterSt) : (s.setCl k x).takeoverAt = s.takeoverAt := rfl
@[simp] theorem State.setCl_heldRetirements (s : State) (k : Cluster) (x : ClusterSt) : (s.setCl k x).heldRetirements = s.heldRetirements := rfl
@[simp] theorem State.setCl_dispatchAt (s : State) (k : Cluster) (x : ClusterSt) : (s.setCl k x).dispatchAt = s.dispatchAt := rfl
@[simp] theorem State.setCl_loadAt (s : State) (k : Cluster) (x : ClusterSt) : (s.setCl k x).loadAt = s.loadAt := rfl
@[simp] theorem State.setCl_saved (s : State) (k : Cluster) (x : ClusterSt) : (s.setCl k x).saved = s.saved := rfl
@[simp] theorem State.setCl_snaps (s : State) (k : Cluster) (x : ClusterSt) : (s.setCl k x).snaps = s.snaps := rfl
@[simp] theorem State.setCl_tenants (s : State) (k : Cluster) (x : ClusterSt) : (s.setCl k x).tenants = s.tenants := rfl
@[simp] theorem State.setCl_hmaj (s : State) (k : Cluster) (x : ClusterSt) : (s.setCl k x).hmaj = s.hmaj := rfl
@[simp] theorem State.setCl_hmin (s : State) (k : Cluster) (x : ClusterSt) : (s.setCl k x).hmin = s.hmin := rfl
@[simp] theorem State.setCl_hacc (s : State) (k : Cluster) (x : ClusterSt) : (s.setCl k x).hacc = s.hacc := rfl
@[simp] theorem State.setCl_stations (s : State) (k : Cluster) (x : ClusterSt) : (s.setCl k x).stations = s.stations := rfl
@[simp] theorem State.setCl_members (s : State) (k : Cluster) (x : ClusterSt) : (s.setCl k x).members = s.members := rfl
@[simp] theorem State.setCl_podAcks (s : State) (k : Cluster) (x : ClusterSt) : (s.setCl k x).podAcks = s.podAcks := rfl
@[simp] theorem State.setCl_heldPackets (s : State) (k : Cluster) (x : ClusterSt) : (s.setCl k x).heldPackets = s.heldPackets := rfl
@[simp] theorem State.setCl_mgmtLog (s : State) (k : Cluster) (x : ClusterSt) : (s.setCl k x).mgmtLog = s.mgmtLog := rfl
@[simp] theorem State.setCl_mgmtReports (s : State) (k : Cluster) (x : ClusterSt) : (s.setCl k x).mgmtReports = s.mgmtReports := rfl
@[simp] theorem State.setCl_debugger (s : State) (k : Cluster) (x : ClusterSt) : (s.setCl k x).debugger = s.debugger := rfl
@[simp] theorem State.setCl_agenda (s : State) (k : Cluster) (x : ClusterSt) : (s.setCl k x).agenda = s.agenda := rfl
@[simp] theorem State.setCl_free (s : State) (k : Cluster) (x : ClusterSt) : (s.setCl k x).free = s.free := rfl
@[simp] theorem State.setCl_core (s : State) (k : Cluster) (x : ClusterSt) : (s.setCl k x).core = s.core.setCl k x := rfl
@[simp] theorem Core.setCl_shadow (c : Core) (k : Cluster) (x : ClusterSt) : (c.setCl k x).shadow = c.shadow := by cases k <;> rfl
@[simp] theorem Core.setCl_y (c : Core) (k : Cluster) (x : ClusterSt) : (c.setCl k x).y = c.y := by cases k <;> rfl
@[simp] theorem Core.setCl_h (c : Core) (k : Cluster) (x : ClusterSt) : (c.setCl k x).h = c.h := by cases k <;> rfl
@[simp] theorem Core.setCl_k (c : Core) (k : Cluster) (x : ClusterSt) : (c.setCl k x).k = c.k := by cases k <;> rfl
@[simp] theorem Core.setCl_q (c : Core) (k : Cluster) (x : ClusterSt) : (c.setCl k x).q = c.q := by cases k <;> rfl
@[simp] theorem Core.setCl_cb (c : Core) (k : Cluster) (x : ClusterSt) : (c.setCl k x).cb = c.cb := by cases k <;> rfl
@[simp] theorem Core.setCl_clag (c : Core) (k : Cluster) (x : ClusterSt) : (c.setCl k x).clag = c.clag := by cases k <;> rfl
@[simp] theorem Core.setCl_cir (c : Core) (k : Cluster) (x : ClusterSt) : (c.setCl k x).cir = c.cir := by cases k <;> rfl
@[simp] theorem Core.setCl_nest (c : Core) (k : Cluster) (x : ClusterSt) : (c.setCl k x).nest = c.nest := by cases k <;> rfl
@[simp] theorem Core.setCl_lcore (c : Core) (k : Cluster) (x : ClusterSt) : (c.setCl k x).lcore = c.lcore := by cases k <;> rfl
@[simp] theorem Core.setCl_pcore (c : Core) (k : Cluster) (x : ClusterSt) : (c.setCl k x).pcore = c.pcore := by cases k <;> rfl
@[simp] theorem Core.setCl_plane (c : Core) (k : Cluster) (x : ClusterSt) : (c.setCl k x).plane = c.plane := by cases k <;> rfl
@[simp] theorem Core.setCl_prio (c : Core) (k : Cluster) (x : ClusterSt) : (c.setCl k x).prio = c.prio := by cases k <;> rfl
@[simp] theorem Core.setCl_tenant (c : Core) (k : Cluster) (x : ClusterSt) : (c.setCl k x).tenant = c.tenant := by cases k <;> rfl
@[simp] theorem Core.setCl_traprec (c : Core) (k : Cluster) (x : ClusterSt) : (c.setCl k x).traprec = c.traprec := by cases k <;> rfl
@[simp] theorem Core.setCl_mxret (c : Core) (k : Cluster) (x : ClusterSt) : (c.setCl k x).mxret = c.mxret := by cases k <;> rfl
@[simp] theorem Core.setCl_ftab (c : Core) (k : Cluster) (x : ClusterSt) : (c.setCl k x).ftab = c.ftab := by cases k <;> rfl
@[simp] theorem Core.setCl_tol (c : Core) (k : Cluster) (x : ClusterSt) : (c.setCl k x).tol = c.tol := by cases k <;> rfl
@[simp] theorem Core.setCl_fij (c : Core) (k : Cluster) (x : ClusterSt) : (c.setCl k x).fij = c.fij := by cases k <;> rfl
@[simp] theorem Core.setCl_kend (c : Core) (k : Cluster) (x : ClusterSt) : (c.setCl k x).kend = c.kend := by cases k <;> rfl
@[simp] theorem Core.setCl_ls (c : Core) (k : Cluster) (x : ClusterSt) : (c.setCl k x).ls = c.ls := by cases k <;> rfl
@[simp] theorem Core.setCl_acc (c : Core) (k : Cluster) (x : ClusterSt) : (c.setCl k x).acc = c.acc := by cases k <;> rfl
@[simp] theorem Core.setCl_mr (c : Core) (k : Cluster) (x : ClusterSt) : (c.setCl k x).mr = c.mr := by cases k <;> rfl
@[simp] theorem Core.setCl_scale (c : Core) (k : Cluster) (x : ClusterSt) : (c.setCl k x).scale = c.scale := by cases k <;> rfl
@[simp] theorem Core.setCl_cbmem (c : Core) (k : Cluster) (x : ClusterSt) : (c.setCl k x).cbmem = c.cbmem := by cases k <;> rfl
@[simp] theorem Core.setCl_poison (c : Core) (k : Cluster) (x : ClusterSt) : (c.setCl k x).poison = c.poison := by cases k <;> rfl
@[simp] theorem Core.setCl_allocated (c : Core) (k : Cluster) (x : ClusterSt) : (c.setCl k x).allocated = c.allocated := by cases k <;> rfl
@[simp] theorem Core.setCl_owner (c : Core) (k : Cluster) (x : ClusterSt) : (c.setCl k x).owner = c.owner := by cases k <;> rfl
@[simp] theorem Core.setCl_accLanes (c : Core) (k : Cluster) (x : ClusterSt) : (c.setCl k x).accLanes = c.accLanes := by cases k <;> rfl
@[simp] theorem Core.setCl_mrLanes (c : Core) (k : Cluster) (x : ClusterSt) : (c.setCl k x).mrLanes = c.mrLanes := by cases k <;> rfl
@[simp] theorem Core.setCl_retry (c : Core) (k : Cluster) (x : ClusterSt) : (c.setCl k x).retry = c.retry := by cases k <;> rfl
@[simp] theorem Core.setCl_banks (c : Core) (k : Cluster) (x : ClusterSt) : (c.setCl k x).banks = c.banks := by cases k <;> rfl
@[simp] theorem Core.setCl_regions (c : Core) (k : Cluster) (x : ClusterSt) : (c.setCl k x).regions = c.regions := by cases k <;> rfl
@[simp] theorem Core.setCl_phase (c : Core) (k : Cluster) (x : ClusterSt) : (c.setCl k x).phase = c.phase := by cases k <;> rfl
@[simp] theorem Core.setCl_expTag (c : Core) (k : Cluster) (x : ClusterSt) : (c.setCl k x).expTag = c.expTag := by cases k <;> rfl
@[simp] theorem Core.setCl_swapCore (c : Core) (k : Cluster) (x : ClusterSt) : (c.setCl k x).swapCore = c.swapCore := by cases k <;> rfl
@[simp] theorem Core.setCl_swapTrunk (c : Core) (k : Cluster) (x : ClusterSt) : (c.setCl k x).swapTrunk = c.swapTrunk := by cases k <;> rfl
@[simp] theorem Core.setCl_fronts (c : Core) (k : Cluster) (x : ClusterSt) : (c.setCl k x).fronts = c.fronts := by cases k <;> rfl
@[simp] theorem Core.setCl_timeline (c : Core) (k : Cluster) (x : ClusterSt) : (c.setCl k x).timeline = c.timeline := by cases k <;> rfl
@[simp] theorem Core.setCl_made (c : Core) (k : Cluster) (x : ClusterSt) : (c.setCl k x).made = c.made := by cases k <;> rfl
@[simp] theorem Core.setCl_calendar (c : Core) (k : Cluster) (x : ClusterSt) : (c.setCl k x).calendar = c.calendar := by cases k <;> rfl
@[simp] theorem Core.setCl_bufs (c : Core) (k : Cluster) (x : ClusterSt) : (c.setCl k x).bufs = c.bufs := by cases k <;> rfl
@[simp] theorem Core.setCl_seq (c : Core) (k : Cluster) (x : ClusterSt) : (c.setCl k x).seq = c.seq := by cases k <;> rfl
@[simp] theorem Core.setCl_vecFree (c : Core) (k : Cluster) (x : ClusterSt) : (c.setCl k x).vecFree = c.vecFree := by cases k <;> rfl
@[simp] theorem Core.setCl_mxFree (c : Core) (k : Cluster) (x : ClusterSt) : (c.setCl k x).mxFree = c.mxFree := by cases k <;> rfl
@[simp] theorem Core.setCl_spillFree (c : Core) (k : Cluster) (x : ClusterSt) : (c.setCl k x).spillFree = c.spillFree := by cases k <;> rfl
@[simp] theorem Core.setCl_patchFree (c : Core) (k : Cluster) (x : ClusterSt) : (c.setCl k x).patchFree = c.patchFree := by cases k <;> rfl
@[simp] theorem Core.setCl_copyQ (c : Core) (k : Cluster) (x : ClusterSt) : (c.setCl k x).copyQ = c.copyQ := by cases k <;> rfl
@[simp] theorem Core.setCl_fills (c : Core) (k : Cluster) (x : ClusterSt) : (c.setCl k x).fills = c.fills := by cases k <;> rfl
@[simp] theorem Core.setCl_pseq (c : Core) (k : Cluster) (x : ClusterSt) : (c.setCl k x).pseq = c.pseq := by cases k <;> rfl
@[simp] theorem Core.setCl_kseq (c : Core) (k : Cluster) (x : ClusterSt) : (c.setCl k x).kseq = c.kseq := by cases k <;> rfl
@[simp] theorem Core.setCl_ops (c : Core) (k : Cluster) (x : ClusterSt) : (c.setCl k x).ops = c.ops := by cases k <;> rfl
@[simp] theorem Core.setCl_mine (c : Core) (k : Cluster) (x : ClusterSt) : (c.setCl k x).mine = c.mine := by cases k <;> rfl
@[simp] theorem Core.setCl_lastAnswer (c : Core) (k : Cluster) (x : ClusterSt) : (c.setCl k x).lastAnswer = c.lastAnswer := by cases k <;> rfl
@[simp] theorem Core.setCl_releases (c : Core) (k : Cluster) (x : ClusterSt) : (c.setCl k x).releases = c.releases := by cases k <;> rfl
@[simp] theorem Core.setCl_observed (c : Core) (k : Cluster) (x : ClusterSt) : (c.setCl k x).observed = c.observed := by cases k <;> rfl
@[simp] theorem Core.setCl_pftok (c : Core) (k : Cluster) (x : ClusterSt) : (c.setCl k x).pftok = c.pftok := by cases k <;> rfl
@[simp] theorem Core.setCl_kick (c : Core) (k : Cluster) (x : ClusterSt) : (c.setCl k x).kick = c.kick := by cases k <;> rfl
@[simp] theorem Core.setCl_freeze (c : Core) (k : Cluster) (x : ClusterSt) : (c.setCl k x).freeze = c.freeze := by cases k <;> rfl
@[simp] theorem Core.setCl_faultQ (c : Core) (k : Cluster) (x : ClusterSt) : (c.setCl k x).faultQ = c.faultQ := by cases k <;> rfl
@[simp] theorem Core.setCl_waitQ (c : Core) (k : Cluster) (x : ClusterSt) : (c.setCl k x).waitQ = c.waitQ := by cases k <;> rfl
@[simp] theorem Core.setCl_handling (c : Core) (k : Cluster) (x : ClusterSt) : (c.setCl k x).handling = c.handling := by cases k <;> rfl
@[simp] theorem Core.setCl_handled (c : Core) (k : Cluster) (x : ClusterSt) : (c.setCl k x).handled = c.handled := by cases k <;> rfl
@[simp] theorem Core.setCl_faultAt (c : Core) (k : Cluster) (x : ClusterSt) : (c.setCl k x).faultAt = c.faultAt := by cases k <;> rfl
@[simp] theorem Core.setCl_heldRec (c : Core) (k : Cluster) (x : ClusterSt) : (c.setCl k x).heldRec = c.heldRec := by cases k <;> rfl
@[simp] theorem Core.setCl_pending (c : Core) (k : Cluster) (x : ClusterSt) : (c.setCl k x).pending = c.pending := by cases k <;> rfl
@[simp] theorem Core.setCl_yielded (c : Core) (k : Cluster) (x : ClusterSt) : (c.setCl k x).yielded = c.yielded := by cases k <;> rfl
@[simp] theorem Core.setCl_cursor (c : Core) (k : Cluster) (x : ClusterSt) : (c.setCl k x).cursor = c.cursor := by cases k <;> rfl
@[simp] theorem Core.setCl_issuing (c : Core) (k : Cluster) (x : ClusterSt) : (c.setCl k x).issuing = c.issuing := by cases k <;> rfl
@[simp] theorem Core.setCl_holdOthers (c : Core) (k : Cluster) (x : ClusterSt) : (c.setCl k x).holdOthers = c.holdOthers := by cases k <;> rfl
@[simp] theorem Core.setCl_qjump (c : Core) (k : Cluster) (x : ClusterSt) : (c.setCl k x).qjump = c.qjump := by cases k <;> rfl
@[simp] theorem Core.setCl_phaseIdx (c : Core) (k : Cluster) (x : ClusterSt) : (c.setCl k x).phaseIdx = c.phaseIdx := by cases k <;> rfl
@[simp] theorem Core.setCl_touched (c : Core) (k : Cluster) (x : ClusterSt) : (c.setCl k x).touched = c.touched := by cases k <;> rfl
@[simp] theorem Core.setCl_protectedPhase (c : Core) (k : Cluster) (x : ClusterSt) : (c.setCl k x).protectedPhase = c.protectedPhase := by cases k <;> rfl
@[simp] theorem Core.setCl_stepRem (c : Core) (k : Cluster) (x : ClusterSt) : (c.setCl k x).stepRem = c.stepRem := by cases k <;> rfl
@[simp] theorem Core.cl_setCl_same (c : Core) (k : Cluster) (x : ClusterSt) : (c.setCl k x).cl k = x := by cases k <;> rfl
theorem Core.cl_setCl_other (c : Core) {k j : Cluster} (x : ClusterSt) (h : j ≠ k) : (c.setCl k x).cl j = c.cl j := by
  cases k <;> cases j <;> first | rfl | exact absurd rfl h

/-! Registers of the core -/

@[simp] theorem Core.setCir_s (c : Core) (b : Nat) : (c.setCir b).s = c.s := rfl
@[simp] theorem Core.setCir_l (c : Core) (b : Nat) : (c.setCir b).l = c.l := rfl
@[simp] theorem Core.setCir_m (c : Core) (b : Nat) : (c.setCir b).m = c.m := rfl
@[simp] theorem Core.setCir_w (c : Core) (b : Nat) : (c.setCir b).w = c.w := rfl
@[simp] theorem Core.setCir_shadow (c : Core) (b : Nat) : (c.setCir b).shadow = c.shadow := rfl
@[simp] theorem Core.setCir_y (c : Core) (b : Nat) : (c.setCir b).y = c.y := rfl
@[simp] theorem Core.setCir_h (c : Core) (b : Nat) : (c.setCir b).h = c.h := rfl
@[simp] theorem Core.setCir_k (c : Core) (b : Nat) : (c.setCir b).k = c.k := rfl
@[simp] theorem Core.setCir_q (c : Core) (b : Nat) : (c.setCir b).q = c.q := rfl
@[simp] theorem Core.setCir_cb (c : Core) (b : Nat) : (c.setCir b).cb = c.cb := rfl
@[simp] theorem Core.setCir_clag (c : Core) (b : Nat) : (c.setCir b).clag = c.clag := rfl
@[simp] theorem Core.setCir_nest (c : Core) (b : Nat) : (c.setCir b).nest = c.nest := rfl
@[simp] theorem Core.setCir_lcore (c : Core) (b : Nat) : (c.setCir b).lcore = c.lcore := rfl
@[simp] theorem Core.setCir_pcore (c : Core) (b : Nat) : (c.setCir b).pcore = c.pcore := rfl
@[simp] theorem Core.setCir_plane (c : Core) (b : Nat) : (c.setCir b).plane = c.plane := rfl
@[simp] theorem Core.setCir_prio (c : Core) (b : Nat) : (c.setCir b).prio = c.prio := rfl
@[simp] theorem Core.setCir_tenant (c : Core) (b : Nat) : (c.setCir b).tenant = c.tenant := rfl
@[simp] theorem Core.setCir_traprec (c : Core) (b : Nat) : (c.setCir b).traprec = c.traprec := rfl
@[simp] theorem Core.setCir_mxret (c : Core) (b : Nat) : (c.setCir b).mxret = c.mxret := rfl
@[simp] theorem Core.setCir_ftab (c : Core) (b : Nat) : (c.setCir b).ftab = c.ftab := rfl
@[simp] theorem Core.setCir_tol (c : Core) (b : Nat) : (c.setCir b).tol = c.tol := rfl
@[simp] theorem Core.setCir_fij (c : Core) (b : Nat) : (c.setCir b).fij = c.fij := rfl
@[simp] theorem Core.setCir_kend (c : Core) (b : Nat) : (c.setCir b).kend = c.kend := rfl
@[simp] theorem Core.setCir_ls (c : Core) (b : Nat) : (c.setCir b).ls = c.ls := rfl
@[simp] theorem Core.setCir_acc (c : Core) (b : Nat) : (c.setCir b).acc = c.acc := rfl
@[simp] theorem Core.setCir_mr (c : Core) (b : Nat) : (c.setCir b).mr = c.mr := rfl
@[simp] theorem Core.setCir_scale (c : Core) (b : Nat) : (c.setCir b).scale = c.scale := rfl
@[simp] theorem Core.setCir_cbmem (c : Core) (b : Nat) : (c.setCir b).cbmem = c.cbmem := rfl
@[simp] theorem Core.setCir_poison (c : Core) (b : Nat) : (c.setCir b).poison = c.poison := rfl
@[simp] theorem Core.setCir_allocated (c : Core) (b : Nat) : (c.setCir b).allocated = c.allocated := rfl
@[simp] theorem Core.setCir_owner (c : Core) (b : Nat) : (c.setCir b).owner = c.owner := rfl
@[simp] theorem Core.setCir_accLanes (c : Core) (b : Nat) : (c.setCir b).accLanes = c.accLanes := rfl
@[simp] theorem Core.setCir_mrLanes (c : Core) (b : Nat) : (c.setCir b).mrLanes = c.mrLanes := rfl
@[simp] theorem Core.setCir_retry (c : Core) (b : Nat) : (c.setCir b).retry = c.retry := rfl
@[simp] theorem Core.setCir_banks (c : Core) (b : Nat) : (c.setCir b).banks = c.banks := rfl
@[simp] theorem Core.setCir_regions (c : Core) (b : Nat) : (c.setCir b).regions = c.regions := rfl
@[simp] theorem Core.setCir_phase (c : Core) (b : Nat) : (c.setCir b).phase = c.phase := rfl
@[simp] theorem Core.setCir_expTag (c : Core) (b : Nat) : (c.setCir b).expTag = c.expTag := rfl
@[simp] theorem Core.setCir_swapCore (c : Core) (b : Nat) : (c.setCir b).swapCore = c.swapCore := rfl
@[simp] theorem Core.setCir_swapTrunk (c : Core) (b : Nat) : (c.setCir b).swapTrunk = c.swapTrunk := rfl
@[simp] theorem Core.setCir_fronts (c : Core) (b : Nat) : (c.setCir b).fronts = c.fronts := rfl
@[simp] theorem Core.setCir_timeline (c : Core) (b : Nat) : (c.setCir b).timeline = c.timeline := rfl
@[simp] theorem Core.setCir_made (c : Core) (b : Nat) : (c.setCir b).made = c.made := rfl
@[simp] theorem Core.setCir_calendar (c : Core) (b : Nat) : (c.setCir b).calendar = c.calendar := rfl
@[simp] theorem Core.setCir_bufs (c : Core) (b : Nat) : (c.setCir b).bufs = c.bufs := rfl
@[simp] theorem Core.setCir_seq (c : Core) (b : Nat) : (c.setCir b).seq = c.seq := rfl
@[simp] theorem Core.setCir_vecFree (c : Core) (b : Nat) : (c.setCir b).vecFree = c.vecFree := rfl
@[simp] theorem Core.setCir_mxFree (c : Core) (b : Nat) : (c.setCir b).mxFree = c.mxFree := rfl
@[simp] theorem Core.setCir_spillFree (c : Core) (b : Nat) : (c.setCir b).spillFree = c.spillFree := rfl
@[simp] theorem Core.setCir_patchFree (c : Core) (b : Nat) : (c.setCir b).patchFree = c.patchFree := rfl
@[simp] theorem Core.setCir_copyQ (c : Core) (b : Nat) : (c.setCir b).copyQ = c.copyQ := rfl
@[simp] theorem Core.setCir_fills (c : Core) (b : Nat) : (c.setCir b).fills = c.fills := rfl
@[simp] theorem Core.setCir_pseq (c : Core) (b : Nat) : (c.setCir b).pseq = c.pseq := rfl
@[simp] theorem Core.setCir_kseq (c : Core) (b : Nat) : (c.setCir b).kseq = c.kseq := rfl
@[simp] theorem Core.setCir_ops (c : Core) (b : Nat) : (c.setCir b).ops = c.ops := rfl
@[simp] theorem Core.setCir_mine (c : Core) (b : Nat) : (c.setCir b).mine = c.mine := rfl
@[simp] theorem Core.setCir_lastAnswer (c : Core) (b : Nat) : (c.setCir b).lastAnswer = c.lastAnswer := rfl
@[simp] theorem Core.setCir_releases (c : Core) (b : Nat) : (c.setCir b).releases = c.releases := rfl
@[simp] theorem Core.setCir_observed (c : Core) (b : Nat) : (c.setCir b).observed = c.observed := rfl
@[simp] theorem Core.setCir_pftok (c : Core) (b : Nat) : (c.setCir b).pftok = c.pftok := rfl
@[simp] theorem Core.setCir_kick (c : Core) (b : Nat) : (c.setCir b).kick = c.kick := rfl
@[simp] theorem Core.setCir_freeze (c : Core) (b : Nat) : (c.setCir b).freeze = c.freeze := rfl
@[simp] theorem Core.setCir_faultQ (c : Core) (b : Nat) : (c.setCir b).faultQ = c.faultQ := rfl
@[simp] theorem Core.setCir_waitQ (c : Core) (b : Nat) : (c.setCir b).waitQ = c.waitQ := rfl
@[simp] theorem Core.setCir_handling (c : Core) (b : Nat) : (c.setCir b).handling = c.handling := rfl
@[simp] theorem Core.setCir_handled (c : Core) (b : Nat) : (c.setCir b).handled = c.handled := rfl
@[simp] theorem Core.setCir_faultAt (c : Core) (b : Nat) : (c.setCir b).faultAt = c.faultAt := rfl
@[simp] theorem Core.setCir_heldRec (c : Core) (b : Nat) : (c.setCir b).heldRec = c.heldRec := rfl
@[simp] theorem Core.setCir_pending (c : Core) (b : Nat) : (c.setCir b).pending = c.pending := rfl
@[simp] theorem Core.setCir_yielded (c : Core) (b : Nat) : (c.setCir b).yielded = c.yielded := rfl
@[simp] theorem Core.setCir_cursor (c : Core) (b : Nat) : (c.setCir b).cursor = c.cursor := rfl
@[simp] theorem Core.setCir_issuing (c : Core) (b : Nat) : (c.setCir b).issuing = c.issuing := rfl
@[simp] theorem Core.setCir_holdOthers (c : Core) (b : Nat) : (c.setCir b).holdOthers = c.holdOthers := rfl
@[simp] theorem Core.setCir_qjump (c : Core) (b : Nat) : (c.setCir b).qjump = c.qjump := rfl
@[simp] theorem Core.setCir_phaseIdx (c : Core) (b : Nat) : (c.setCir b).phaseIdx = c.phaseIdx := rfl
@[simp] theorem Core.setCir_touched (c : Core) (b : Nat) : (c.setCir b).touched = c.touched := rfl
@[simp] theorem Core.setCir_protectedPhase (c : Core) (b : Nat) : (c.setCir b).protectedPhase = c.protectedPhase := rfl
@[simp] theorem Core.setCir_stepRem (c : Core) (b : Nat) : (c.setCir b).stepRem = c.stepRem := rfl
@[simp] theorem Core.writeY_s (c : Core) (n : BitVec 4) (v : Word) : (c.writeY n v).s = c.s := rfl
@[simp] theorem Core.writeY_l (c : Core) (n : BitVec 4) (v : Word) : (c.writeY n v).l = c.l := rfl
@[simp] theorem Core.writeY_m (c : Core) (n : BitVec 4) (v : Word) : (c.writeY n v).m = c.m := rfl
@[simp] theorem Core.writeY_w (c : Core) (n : BitVec 4) (v : Word) : (c.writeY n v).w = c.w := rfl
@[simp] theorem Core.writeY_shadow (c : Core) (n : BitVec 4) (v : Word) : (c.writeY n v).shadow = c.shadow := rfl
@[simp] theorem Core.writeY_h (c : Core) (n : BitVec 4) (v : Word) : (c.writeY n v).h = c.h := rfl
@[simp] theorem Core.writeY_k (c : Core) (n : BitVec 4) (v : Word) : (c.writeY n v).k = c.k := rfl
@[simp] theorem Core.writeY_q (c : Core) (n : BitVec 4) (v : Word) : (c.writeY n v).q = c.q := rfl
@[simp] theorem Core.writeY_cb (c : Core) (n : BitVec 4) (v : Word) : (c.writeY n v).cb = c.cb := rfl
@[simp] theorem Core.writeY_clag (c : Core) (n : BitVec 4) (v : Word) : (c.writeY n v).clag = c.clag := rfl
@[simp] theorem Core.writeY_cir (c : Core) (n : BitVec 4) (v : Word) : (c.writeY n v).cir = c.cir := rfl
@[simp] theorem Core.writeY_nest (c : Core) (n : BitVec 4) (v : Word) : (c.writeY n v).nest = c.nest := rfl
@[simp] theorem Core.writeY_lcore (c : Core) (n : BitVec 4) (v : Word) : (c.writeY n v).lcore = c.lcore := rfl
@[simp] theorem Core.writeY_pcore (c : Core) (n : BitVec 4) (v : Word) : (c.writeY n v).pcore = c.pcore := rfl
@[simp] theorem Core.writeY_plane (c : Core) (n : BitVec 4) (v : Word) : (c.writeY n v).plane = c.plane := rfl
@[simp] theorem Core.writeY_prio (c : Core) (n : BitVec 4) (v : Word) : (c.writeY n v).prio = c.prio := rfl
@[simp] theorem Core.writeY_tenant (c : Core) (n : BitVec 4) (v : Word) : (c.writeY n v).tenant = c.tenant := rfl
@[simp] theorem Core.writeY_traprec (c : Core) (n : BitVec 4) (v : Word) : (c.writeY n v).traprec = c.traprec := rfl
@[simp] theorem Core.writeY_mxret (c : Core) (n : BitVec 4) (v : Word) : (c.writeY n v).mxret = c.mxret := rfl
@[simp] theorem Core.writeY_ftab (c : Core) (n : BitVec 4) (v : Word) : (c.writeY n v).ftab = c.ftab := rfl
@[simp] theorem Core.writeY_tol (c : Core) (n : BitVec 4) (v : Word) : (c.writeY n v).tol = c.tol := rfl
@[simp] theorem Core.writeY_fij (c : Core) (n : BitVec 4) (v : Word) : (c.writeY n v).fij = c.fij := rfl
@[simp] theorem Core.writeY_kend (c : Core) (n : BitVec 4) (v : Word) : (c.writeY n v).kend = c.kend := rfl
@[simp] theorem Core.writeY_ls (c : Core) (n : BitVec 4) (v : Word) : (c.writeY n v).ls = c.ls := rfl
@[simp] theorem Core.writeY_acc (c : Core) (n : BitVec 4) (v : Word) : (c.writeY n v).acc = c.acc := rfl
@[simp] theorem Core.writeY_mr (c : Core) (n : BitVec 4) (v : Word) : (c.writeY n v).mr = c.mr := rfl
@[simp] theorem Core.writeY_scale (c : Core) (n : BitVec 4) (v : Word) : (c.writeY n v).scale = c.scale := rfl
@[simp] theorem Core.writeY_cbmem (c : Core) (n : BitVec 4) (v : Word) : (c.writeY n v).cbmem = c.cbmem := rfl
@[simp] theorem Core.writeY_poison (c : Core) (n : BitVec 4) (v : Word) : (c.writeY n v).poison = c.poison := rfl
@[simp] theorem Core.writeY_allocated (c : Core) (n : BitVec 4) (v : Word) : (c.writeY n v).allocated = c.allocated := rfl
@[simp] theorem Core.writeY_owner (c : Core) (n : BitVec 4) (v : Word) : (c.writeY n v).owner = c.owner := rfl
@[simp] theorem Core.writeY_accLanes (c : Core) (n : BitVec 4) (v : Word) : (c.writeY n v).accLanes = c.accLanes := rfl
@[simp] theorem Core.writeY_mrLanes (c : Core) (n : BitVec 4) (v : Word) : (c.writeY n v).mrLanes = c.mrLanes := rfl
@[simp] theorem Core.writeY_retry (c : Core) (n : BitVec 4) (v : Word) : (c.writeY n v).retry = c.retry := rfl
@[simp] theorem Core.writeY_banks (c : Core) (n : BitVec 4) (v : Word) : (c.writeY n v).banks = c.banks := rfl
@[simp] theorem Core.writeY_regions (c : Core) (n : BitVec 4) (v : Word) : (c.writeY n v).regions = c.regions := rfl
@[simp] theorem Core.writeY_phase (c : Core) (n : BitVec 4) (v : Word) : (c.writeY n v).phase = c.phase := rfl
@[simp] theorem Core.writeY_expTag (c : Core) (n : BitVec 4) (v : Word) : (c.writeY n v).expTag = c.expTag := rfl
@[simp] theorem Core.writeY_swapCore (c : Core) (n : BitVec 4) (v : Word) : (c.writeY n v).swapCore = c.swapCore := rfl
@[simp] theorem Core.writeY_swapTrunk (c : Core) (n : BitVec 4) (v : Word) : (c.writeY n v).swapTrunk = c.swapTrunk := rfl
@[simp] theorem Core.writeY_fronts (c : Core) (n : BitVec 4) (v : Word) : (c.writeY n v).fronts = c.fronts := rfl
@[simp] theorem Core.writeY_timeline (c : Core) (n : BitVec 4) (v : Word) : (c.writeY n v).timeline = c.timeline := rfl
@[simp] theorem Core.writeY_made (c : Core) (n : BitVec 4) (v : Word) : (c.writeY n v).made = c.made := rfl
@[simp] theorem Core.writeY_calendar (c : Core) (n : BitVec 4) (v : Word) : (c.writeY n v).calendar = c.calendar := rfl
@[simp] theorem Core.writeY_bufs (c : Core) (n : BitVec 4) (v : Word) : (c.writeY n v).bufs = c.bufs := rfl
@[simp] theorem Core.writeY_seq (c : Core) (n : BitVec 4) (v : Word) : (c.writeY n v).seq = c.seq := rfl
@[simp] theorem Core.writeY_vecFree (c : Core) (n : BitVec 4) (v : Word) : (c.writeY n v).vecFree = c.vecFree := rfl
@[simp] theorem Core.writeY_mxFree (c : Core) (n : BitVec 4) (v : Word) : (c.writeY n v).mxFree = c.mxFree := rfl
@[simp] theorem Core.writeY_spillFree (c : Core) (n : BitVec 4) (v : Word) : (c.writeY n v).spillFree = c.spillFree := rfl
@[simp] theorem Core.writeY_patchFree (c : Core) (n : BitVec 4) (v : Word) : (c.writeY n v).patchFree = c.patchFree := rfl
@[simp] theorem Core.writeY_copyQ (c : Core) (n : BitVec 4) (v : Word) : (c.writeY n v).copyQ = c.copyQ := rfl
@[simp] theorem Core.writeY_fills (c : Core) (n : BitVec 4) (v : Word) : (c.writeY n v).fills = c.fills := rfl
@[simp] theorem Core.writeY_pseq (c : Core) (n : BitVec 4) (v : Word) : (c.writeY n v).pseq = c.pseq := rfl
@[simp] theorem Core.writeY_kseq (c : Core) (n : BitVec 4) (v : Word) : (c.writeY n v).kseq = c.kseq := rfl
@[simp] theorem Core.writeY_ops (c : Core) (n : BitVec 4) (v : Word) : (c.writeY n v).ops = c.ops := rfl
@[simp] theorem Core.writeY_mine (c : Core) (n : BitVec 4) (v : Word) : (c.writeY n v).mine = c.mine := rfl
@[simp] theorem Core.writeY_lastAnswer (c : Core) (n : BitVec 4) (v : Word) : (c.writeY n v).lastAnswer = c.lastAnswer := rfl
@[simp] theorem Core.writeY_releases (c : Core) (n : BitVec 4) (v : Word) : (c.writeY n v).releases = c.releases := rfl
@[simp] theorem Core.writeY_observed (c : Core) (n : BitVec 4) (v : Word) : (c.writeY n v).observed = c.observed := rfl
@[simp] theorem Core.writeY_pftok (c : Core) (n : BitVec 4) (v : Word) : (c.writeY n v).pftok = c.pftok := rfl
@[simp] theorem Core.writeY_kick (c : Core) (n : BitVec 4) (v : Word) : (c.writeY n v).kick = c.kick := rfl
@[simp] theorem Core.writeY_freeze (c : Core) (n : BitVec 4) (v : Word) : (c.writeY n v).freeze = c.freeze := rfl
@[simp] theorem Core.writeY_faultQ (c : Core) (n : BitVec 4) (v : Word) : (c.writeY n v).faultQ = c.faultQ := rfl
@[simp] theorem Core.writeY_waitQ (c : Core) (n : BitVec 4) (v : Word) : (c.writeY n v).waitQ = c.waitQ := rfl
@[simp] theorem Core.writeY_handling (c : Core) (n : BitVec 4) (v : Word) : (c.writeY n v).handling = c.handling := rfl
@[simp] theorem Core.writeY_handled (c : Core) (n : BitVec 4) (v : Word) : (c.writeY n v).handled = c.handled := rfl
@[simp] theorem Core.writeY_faultAt (c : Core) (n : BitVec 4) (v : Word) : (c.writeY n v).faultAt = c.faultAt := rfl
@[simp] theorem Core.writeY_heldRec (c : Core) (n : BitVec 4) (v : Word) : (c.writeY n v).heldRec = c.heldRec := rfl
@[simp] theorem Core.writeY_pending (c : Core) (n : BitVec 4) (v : Word) : (c.writeY n v).pending = c.pending := rfl
@[simp] theorem Core.writeY_yielded (c : Core) (n : BitVec 4) (v : Word) : (c.writeY n v).yielded = c.yielded := rfl
@[simp] theorem Core.writeY_cursor (c : Core) (n : BitVec 4) (v : Word) : (c.writeY n v).cursor = c.cursor := rfl
@[simp] theorem Core.writeY_issuing (c : Core) (n : BitVec 4) (v : Word) : (c.writeY n v).issuing = c.issuing := rfl
@[simp] theorem Core.writeY_holdOthers (c : Core) (n : BitVec 4) (v : Word) : (c.writeY n v).holdOthers = c.holdOthers := rfl
@[simp] theorem Core.writeY_qjump (c : Core) (n : BitVec 4) (v : Word) : (c.writeY n v).qjump = c.qjump := rfl
@[simp] theorem Core.writeY_phaseIdx (c : Core) (n : BitVec 4) (v : Word) : (c.writeY n v).phaseIdx = c.phaseIdx := rfl
@[simp] theorem Core.writeY_touched (c : Core) (n : BitVec 4) (v : Word) : (c.writeY n v).touched = c.touched := rfl
@[simp] theorem Core.writeY_protectedPhase (c : Core) (n : BitVec 4) (v : Word) : (c.writeY n v).protectedPhase = c.protectedPhase := rfl
@[simp] theorem Core.writeY_stepRem (c : Core) (n : BitVec 4) (v : Word) : (c.writeY n v).stepRem = c.stepRem := rfl
@[simp] theorem Core.writeK_s (c : Core) (n : BitVec 3) (v : Word) : (c.writeK n v).s = c.s := rfl
@[simp] theorem Core.writeK_l (c : Core) (n : BitVec 3) (v : Word) : (c.writeK n v).l = c.l := rfl
@[simp] theorem Core.writeK_m (c : Core) (n : BitVec 3) (v : Word) : (c.writeK n v).m = c.m := rfl
@[simp] theorem Core.writeK_w (c : Core) (n : BitVec 3) (v : Word) : (c.writeK n v).w = c.w := rfl
@[simp] theorem Core.writeK_shadow (c : Core) (n : BitVec 3) (v : Word) : (c.writeK n v).shadow = c.shadow := rfl
@[simp] theorem Core.writeK_y (c : Core) (n : BitVec 3) (v : Word) : (c.writeK n v).y = c.y := rfl
@[simp] theorem Core.writeK_h (c : Core) (n : BitVec 3) (v : Word) : (c.writeK n v).h = c.h := rfl
@[simp] theorem Core.writeK_q (c : Core) (n : BitVec 3) (v : Word) : (c.writeK n v).q = c.q := rfl
@[simp] theorem Core.writeK_cb (c : Core) (n : BitVec 3) (v : Word) : (c.writeK n v).cb = c.cb := rfl
@[simp] theorem Core.writeK_clag (c : Core) (n : BitVec 3) (v : Word) : (c.writeK n v).clag = c.clag := rfl
@[simp] theorem Core.writeK_cir (c : Core) (n : BitVec 3) (v : Word) : (c.writeK n v).cir = c.cir := rfl
@[simp] theorem Core.writeK_nest (c : Core) (n : BitVec 3) (v : Word) : (c.writeK n v).nest = c.nest := rfl
@[simp] theorem Core.writeK_lcore (c : Core) (n : BitVec 3) (v : Word) : (c.writeK n v).lcore = c.lcore := rfl
@[simp] theorem Core.writeK_pcore (c : Core) (n : BitVec 3) (v : Word) : (c.writeK n v).pcore = c.pcore := rfl
@[simp] theorem Core.writeK_plane (c : Core) (n : BitVec 3) (v : Word) : (c.writeK n v).plane = c.plane := rfl
@[simp] theorem Core.writeK_prio (c : Core) (n : BitVec 3) (v : Word) : (c.writeK n v).prio = c.prio := rfl
@[simp] theorem Core.writeK_tenant (c : Core) (n : BitVec 3) (v : Word) : (c.writeK n v).tenant = c.tenant := rfl
@[simp] theorem Core.writeK_traprec (c : Core) (n : BitVec 3) (v : Word) : (c.writeK n v).traprec = c.traprec := rfl
@[simp] theorem Core.writeK_mxret (c : Core) (n : BitVec 3) (v : Word) : (c.writeK n v).mxret = c.mxret := rfl
@[simp] theorem Core.writeK_ftab (c : Core) (n : BitVec 3) (v : Word) : (c.writeK n v).ftab = c.ftab := rfl
@[simp] theorem Core.writeK_tol (c : Core) (n : BitVec 3) (v : Word) : (c.writeK n v).tol = c.tol := rfl
@[simp] theorem Core.writeK_fij (c : Core) (n : BitVec 3) (v : Word) : (c.writeK n v).fij = c.fij := rfl
@[simp] theorem Core.writeK_kend (c : Core) (n : BitVec 3) (v : Word) : (c.writeK n v).kend = c.kend := rfl
@[simp] theorem Core.writeK_ls (c : Core) (n : BitVec 3) (v : Word) : (c.writeK n v).ls = c.ls := rfl
@[simp] theorem Core.writeK_acc (c : Core) (n : BitVec 3) (v : Word) : (c.writeK n v).acc = c.acc := rfl
@[simp] theorem Core.writeK_mr (c : Core) (n : BitVec 3) (v : Word) : (c.writeK n v).mr = c.mr := rfl
@[simp] theorem Core.writeK_scale (c : Core) (n : BitVec 3) (v : Word) : (c.writeK n v).scale = c.scale := rfl
@[simp] theorem Core.writeK_cbmem (c : Core) (n : BitVec 3) (v : Word) : (c.writeK n v).cbmem = c.cbmem := rfl
@[simp] theorem Core.writeK_poison (c : Core) (n : BitVec 3) (v : Word) : (c.writeK n v).poison = c.poison := rfl
@[simp] theorem Core.writeK_allocated (c : Core) (n : BitVec 3) (v : Word) : (c.writeK n v).allocated = c.allocated := rfl
@[simp] theorem Core.writeK_owner (c : Core) (n : BitVec 3) (v : Word) : (c.writeK n v).owner = c.owner := rfl
@[simp] theorem Core.writeK_accLanes (c : Core) (n : BitVec 3) (v : Word) : (c.writeK n v).accLanes = c.accLanes := rfl
@[simp] theorem Core.writeK_mrLanes (c : Core) (n : BitVec 3) (v : Word) : (c.writeK n v).mrLanes = c.mrLanes := rfl
@[simp] theorem Core.writeK_retry (c : Core) (n : BitVec 3) (v : Word) : (c.writeK n v).retry = c.retry := rfl
@[simp] theorem Core.writeK_banks (c : Core) (n : BitVec 3) (v : Word) : (c.writeK n v).banks = c.banks := rfl
@[simp] theorem Core.writeK_regions (c : Core) (n : BitVec 3) (v : Word) : (c.writeK n v).regions = c.regions := rfl
@[simp] theorem Core.writeK_phase (c : Core) (n : BitVec 3) (v : Word) : (c.writeK n v).phase = c.phase := rfl
@[simp] theorem Core.writeK_expTag (c : Core) (n : BitVec 3) (v : Word) : (c.writeK n v).expTag = c.expTag := rfl
@[simp] theorem Core.writeK_swapCore (c : Core) (n : BitVec 3) (v : Word) : (c.writeK n v).swapCore = c.swapCore := rfl
@[simp] theorem Core.writeK_swapTrunk (c : Core) (n : BitVec 3) (v : Word) : (c.writeK n v).swapTrunk = c.swapTrunk := rfl
@[simp] theorem Core.writeK_fronts (c : Core) (n : BitVec 3) (v : Word) : (c.writeK n v).fronts = c.fronts := rfl
@[simp] theorem Core.writeK_timeline (c : Core) (n : BitVec 3) (v : Word) : (c.writeK n v).timeline = c.timeline := rfl
@[simp] theorem Core.writeK_made (c : Core) (n : BitVec 3) (v : Word) : (c.writeK n v).made = c.made := rfl
@[simp] theorem Core.writeK_calendar (c : Core) (n : BitVec 3) (v : Word) : (c.writeK n v).calendar = c.calendar := rfl
@[simp] theorem Core.writeK_bufs (c : Core) (n : BitVec 3) (v : Word) : (c.writeK n v).bufs = c.bufs := rfl
@[simp] theorem Core.writeK_seq (c : Core) (n : BitVec 3) (v : Word) : (c.writeK n v).seq = c.seq := rfl
@[simp] theorem Core.writeK_vecFree (c : Core) (n : BitVec 3) (v : Word) : (c.writeK n v).vecFree = c.vecFree := rfl
@[simp] theorem Core.writeK_mxFree (c : Core) (n : BitVec 3) (v : Word) : (c.writeK n v).mxFree = c.mxFree := rfl
@[simp] theorem Core.writeK_spillFree (c : Core) (n : BitVec 3) (v : Word) : (c.writeK n v).spillFree = c.spillFree := rfl
@[simp] theorem Core.writeK_patchFree (c : Core) (n : BitVec 3) (v : Word) : (c.writeK n v).patchFree = c.patchFree := rfl
@[simp] theorem Core.writeK_copyQ (c : Core) (n : BitVec 3) (v : Word) : (c.writeK n v).copyQ = c.copyQ := rfl
@[simp] theorem Core.writeK_fills (c : Core) (n : BitVec 3) (v : Word) : (c.writeK n v).fills = c.fills := rfl
@[simp] theorem Core.writeK_pseq (c : Core) (n : BitVec 3) (v : Word) : (c.writeK n v).pseq = c.pseq := rfl
@[simp] theorem Core.writeK_kseq (c : Core) (n : BitVec 3) (v : Word) : (c.writeK n v).kseq = c.kseq := rfl
@[simp] theorem Core.writeK_ops (c : Core) (n : BitVec 3) (v : Word) : (c.writeK n v).ops = c.ops := rfl
@[simp] theorem Core.writeK_mine (c : Core) (n : BitVec 3) (v : Word) : (c.writeK n v).mine = c.mine := rfl
@[simp] theorem Core.writeK_lastAnswer (c : Core) (n : BitVec 3) (v : Word) : (c.writeK n v).lastAnswer = c.lastAnswer := rfl
@[simp] theorem Core.writeK_releases (c : Core) (n : BitVec 3) (v : Word) : (c.writeK n v).releases = c.releases := rfl
@[simp] theorem Core.writeK_observed (c : Core) (n : BitVec 3) (v : Word) : (c.writeK n v).observed = c.observed := rfl
@[simp] theorem Core.writeK_pftok (c : Core) (n : BitVec 3) (v : Word) : (c.writeK n v).pftok = c.pftok := rfl
@[simp] theorem Core.writeK_kick (c : Core) (n : BitVec 3) (v : Word) : (c.writeK n v).kick = c.kick := rfl
@[simp] theorem Core.writeK_freeze (c : Core) (n : BitVec 3) (v : Word) : (c.writeK n v).freeze = c.freeze := rfl
@[simp] theorem Core.writeK_faultQ (c : Core) (n : BitVec 3) (v : Word) : (c.writeK n v).faultQ = c.faultQ := rfl
@[simp] theorem Core.writeK_waitQ (c : Core) (n : BitVec 3) (v : Word) : (c.writeK n v).waitQ = c.waitQ := rfl
@[simp] theorem Core.writeK_handling (c : Core) (n : BitVec 3) (v : Word) : (c.writeK n v).handling = c.handling := rfl
@[simp] theorem Core.writeK_handled (c : Core) (n : BitVec 3) (v : Word) : (c.writeK n v).handled = c.handled := rfl
@[simp] theorem Core.writeK_faultAt (c : Core) (n : BitVec 3) (v : Word) : (c.writeK n v).faultAt = c.faultAt := rfl
@[simp] theorem Core.writeK_heldRec (c : Core) (n : BitVec 3) (v : Word) : (c.writeK n v).heldRec = c.heldRec := rfl
@[simp] theorem Core.writeK_pending (c : Core) (n : BitVec 3) (v : Word) : (c.writeK n v).pending = c.pending := rfl
@[simp] theorem Core.writeK_yielded (c : Core) (n : BitVec 3) (v : Word) : (c.writeK n v).yielded = c.yielded := rfl
@[simp] theorem Core.writeK_cursor (c : Core) (n : BitVec 3) (v : Word) : (c.writeK n v).cursor = c.cursor := rfl
@[simp] theorem Core.writeK_issuing (c : Core) (n : BitVec 3) (v : Word) : (c.writeK n v).issuing = c.issuing := rfl
@[simp] theorem Core.writeK_holdOthers (c : Core) (n : BitVec 3) (v : Word) : (c.writeK n v).holdOthers = c.holdOthers := rfl
@[simp] theorem Core.writeK_qjump (c : Core) (n : BitVec 3) (v : Word) : (c.writeK n v).qjump = c.qjump := rfl
@[simp] theorem Core.writeK_phaseIdx (c : Core) (n : BitVec 3) (v : Word) : (c.writeK n v).phaseIdx = c.phaseIdx := rfl
@[simp] theorem Core.writeK_touched (c : Core) (n : BitVec 3) (v : Word) : (c.writeK n v).touched = c.touched := rfl
@[simp] theorem Core.writeK_protectedPhase (c : Core) (n : BitVec 3) (v : Word) : (c.writeK n v).protectedPhase = c.protectedPhase := rfl
@[simp] theorem Core.writeK_stepRem (c : Core) (n : BitVec 3) (v : Word) : (c.writeK n v).stepRem = c.stepRem := rfl
@[simp] theorem Core.writeCb_s (c : Core) (n : BitVec 2) (v : Word) : (c.writeCb n v).s = c.s := rfl
@[simp] theorem Core.writeCb_l (c : Core) (n : BitVec 2) (v : Word) : (c.writeCb n v).l = c.l := rfl
@[simp] theorem Core.writeCb_m (c : Core) (n : BitVec 2) (v : Word) : (c.writeCb n v).m = c.m := rfl
@[simp] theorem Core.writeCb_w (c : Core) (n : BitVec 2) (v : Word) : (c.writeCb n v).w = c.w := rfl
@[simp] theorem Core.writeCb_shadow (c : Core) (n : BitVec 2) (v : Word) : (c.writeCb n v).shadow = c.shadow := rfl
@[simp] theorem Core.writeCb_y (c : Core) (n : BitVec 2) (v : Word) : (c.writeCb n v).y = c.y := rfl
@[simp] theorem Core.writeCb_h (c : Core) (n : BitVec 2) (v : Word) : (c.writeCb n v).h = c.h := rfl
@[simp] theorem Core.writeCb_k (c : Core) (n : BitVec 2) (v : Word) : (c.writeCb n v).k = c.k := rfl
@[simp] theorem Core.writeCb_q (c : Core) (n : BitVec 2) (v : Word) : (c.writeCb n v).q = c.q := rfl
@[simp] theorem Core.writeCb_clag (c : Core) (n : BitVec 2) (v : Word) : (c.writeCb n v).clag = c.clag := rfl
@[simp] theorem Core.writeCb_cir (c : Core) (n : BitVec 2) (v : Word) : (c.writeCb n v).cir = c.cir := rfl
@[simp] theorem Core.writeCb_nest (c : Core) (n : BitVec 2) (v : Word) : (c.writeCb n v).nest = c.nest := rfl
@[simp] theorem Core.writeCb_lcore (c : Core) (n : BitVec 2) (v : Word) : (c.writeCb n v).lcore = c.lcore := rfl
@[simp] theorem Core.writeCb_pcore (c : Core) (n : BitVec 2) (v : Word) : (c.writeCb n v).pcore = c.pcore := rfl
@[simp] theorem Core.writeCb_plane (c : Core) (n : BitVec 2) (v : Word) : (c.writeCb n v).plane = c.plane := rfl
@[simp] theorem Core.writeCb_prio (c : Core) (n : BitVec 2) (v : Word) : (c.writeCb n v).prio = c.prio := rfl
@[simp] theorem Core.writeCb_tenant (c : Core) (n : BitVec 2) (v : Word) : (c.writeCb n v).tenant = c.tenant := rfl
@[simp] theorem Core.writeCb_traprec (c : Core) (n : BitVec 2) (v : Word) : (c.writeCb n v).traprec = c.traprec := rfl
@[simp] theorem Core.writeCb_mxret (c : Core) (n : BitVec 2) (v : Word) : (c.writeCb n v).mxret = c.mxret := rfl
@[simp] theorem Core.writeCb_ftab (c : Core) (n : BitVec 2) (v : Word) : (c.writeCb n v).ftab = c.ftab := rfl
@[simp] theorem Core.writeCb_tol (c : Core) (n : BitVec 2) (v : Word) : (c.writeCb n v).tol = c.tol := rfl
@[simp] theorem Core.writeCb_fij (c : Core) (n : BitVec 2) (v : Word) : (c.writeCb n v).fij = c.fij := rfl
@[simp] theorem Core.writeCb_kend (c : Core) (n : BitVec 2) (v : Word) : (c.writeCb n v).kend = c.kend := rfl
@[simp] theorem Core.writeCb_ls (c : Core) (n : BitVec 2) (v : Word) : (c.writeCb n v).ls = c.ls := rfl
@[simp] theorem Core.writeCb_acc (c : Core) (n : BitVec 2) (v : Word) : (c.writeCb n v).acc = c.acc := rfl
@[simp] theorem Core.writeCb_mr (c : Core) (n : BitVec 2) (v : Word) : (c.writeCb n v).mr = c.mr := rfl
@[simp] theorem Core.writeCb_scale (c : Core) (n : BitVec 2) (v : Word) : (c.writeCb n v).scale = c.scale := rfl
@[simp] theorem Core.writeCb_cbmem (c : Core) (n : BitVec 2) (v : Word) : (c.writeCb n v).cbmem = c.cbmem := rfl
@[simp] theorem Core.writeCb_poison (c : Core) (n : BitVec 2) (v : Word) : (c.writeCb n v).poison = c.poison := rfl
@[simp] theorem Core.writeCb_allocated (c : Core) (n : BitVec 2) (v : Word) : (c.writeCb n v).allocated = c.allocated := rfl
@[simp] theorem Core.writeCb_owner (c : Core) (n : BitVec 2) (v : Word) : (c.writeCb n v).owner = c.owner := rfl
@[simp] theorem Core.writeCb_accLanes (c : Core) (n : BitVec 2) (v : Word) : (c.writeCb n v).accLanes = c.accLanes := rfl
@[simp] theorem Core.writeCb_mrLanes (c : Core) (n : BitVec 2) (v : Word) : (c.writeCb n v).mrLanes = c.mrLanes := rfl
@[simp] theorem Core.writeCb_retry (c : Core) (n : BitVec 2) (v : Word) : (c.writeCb n v).retry = c.retry := rfl
@[simp] theorem Core.writeCb_banks (c : Core) (n : BitVec 2) (v : Word) : (c.writeCb n v).banks = c.banks := rfl
@[simp] theorem Core.writeCb_regions (c : Core) (n : BitVec 2) (v : Word) : (c.writeCb n v).regions = c.regions := rfl
@[simp] theorem Core.writeCb_phase (c : Core) (n : BitVec 2) (v : Word) : (c.writeCb n v).phase = c.phase := rfl
@[simp] theorem Core.writeCb_expTag (c : Core) (n : BitVec 2) (v : Word) : (c.writeCb n v).expTag = c.expTag := rfl
@[simp] theorem Core.writeCb_swapCore (c : Core) (n : BitVec 2) (v : Word) : (c.writeCb n v).swapCore = c.swapCore := rfl
@[simp] theorem Core.writeCb_swapTrunk (c : Core) (n : BitVec 2) (v : Word) : (c.writeCb n v).swapTrunk = c.swapTrunk := rfl
@[simp] theorem Core.writeCb_fronts (c : Core) (n : BitVec 2) (v : Word) : (c.writeCb n v).fronts = c.fronts := rfl
@[simp] theorem Core.writeCb_timeline (c : Core) (n : BitVec 2) (v : Word) : (c.writeCb n v).timeline = c.timeline := rfl
@[simp] theorem Core.writeCb_made (c : Core) (n : BitVec 2) (v : Word) : (c.writeCb n v).made = c.made := rfl
@[simp] theorem Core.writeCb_calendar (c : Core) (n : BitVec 2) (v : Word) : (c.writeCb n v).calendar = c.calendar := rfl
@[simp] theorem Core.writeCb_bufs (c : Core) (n : BitVec 2) (v : Word) : (c.writeCb n v).bufs = c.bufs := rfl
@[simp] theorem Core.writeCb_seq (c : Core) (n : BitVec 2) (v : Word) : (c.writeCb n v).seq = c.seq := rfl
@[simp] theorem Core.writeCb_vecFree (c : Core) (n : BitVec 2) (v : Word) : (c.writeCb n v).vecFree = c.vecFree := rfl
@[simp] theorem Core.writeCb_mxFree (c : Core) (n : BitVec 2) (v : Word) : (c.writeCb n v).mxFree = c.mxFree := rfl
@[simp] theorem Core.writeCb_spillFree (c : Core) (n : BitVec 2) (v : Word) : (c.writeCb n v).spillFree = c.spillFree := rfl
@[simp] theorem Core.writeCb_patchFree (c : Core) (n : BitVec 2) (v : Word) : (c.writeCb n v).patchFree = c.patchFree := rfl
@[simp] theorem Core.writeCb_copyQ (c : Core) (n : BitVec 2) (v : Word) : (c.writeCb n v).copyQ = c.copyQ := rfl
@[simp] theorem Core.writeCb_fills (c : Core) (n : BitVec 2) (v : Word) : (c.writeCb n v).fills = c.fills := rfl
@[simp] theorem Core.writeCb_pseq (c : Core) (n : BitVec 2) (v : Word) : (c.writeCb n v).pseq = c.pseq := rfl
@[simp] theorem Core.writeCb_kseq (c : Core) (n : BitVec 2) (v : Word) : (c.writeCb n v).kseq = c.kseq := rfl
@[simp] theorem Core.writeCb_ops (c : Core) (n : BitVec 2) (v : Word) : (c.writeCb n v).ops = c.ops := rfl
@[simp] theorem Core.writeCb_mine (c : Core) (n : BitVec 2) (v : Word) : (c.writeCb n v).mine = c.mine := rfl
@[simp] theorem Core.writeCb_lastAnswer (c : Core) (n : BitVec 2) (v : Word) : (c.writeCb n v).lastAnswer = c.lastAnswer := rfl
@[simp] theorem Core.writeCb_releases (c : Core) (n : BitVec 2) (v : Word) : (c.writeCb n v).releases = c.releases := rfl
@[simp] theorem Core.writeCb_observed (c : Core) (n : BitVec 2) (v : Word) : (c.writeCb n v).observed = c.observed := rfl
@[simp] theorem Core.writeCb_pftok (c : Core) (n : BitVec 2) (v : Word) : (c.writeCb n v).pftok = c.pftok := rfl
@[simp] theorem Core.writeCb_kick (c : Core) (n : BitVec 2) (v : Word) : (c.writeCb n v).kick = c.kick := rfl
@[simp] theorem Core.writeCb_freeze (c : Core) (n : BitVec 2) (v : Word) : (c.writeCb n v).freeze = c.freeze := rfl
@[simp] theorem Core.writeCb_faultQ (c : Core) (n : BitVec 2) (v : Word) : (c.writeCb n v).faultQ = c.faultQ := rfl
@[simp] theorem Core.writeCb_waitQ (c : Core) (n : BitVec 2) (v : Word) : (c.writeCb n v).waitQ = c.waitQ := rfl
@[simp] theorem Core.writeCb_handling (c : Core) (n : BitVec 2) (v : Word) : (c.writeCb n v).handling = c.handling := rfl
@[simp] theorem Core.writeCb_handled (c : Core) (n : BitVec 2) (v : Word) : (c.writeCb n v).handled = c.handled := rfl
@[simp] theorem Core.writeCb_faultAt (c : Core) (n : BitVec 2) (v : Word) : (c.writeCb n v).faultAt = c.faultAt := rfl
@[simp] theorem Core.writeCb_heldRec (c : Core) (n : BitVec 2) (v : Word) : (c.writeCb n v).heldRec = c.heldRec := rfl
@[simp] theorem Core.writeCb_pending (c : Core) (n : BitVec 2) (v : Word) : (c.writeCb n v).pending = c.pending := rfl
@[simp] theorem Core.writeCb_yielded (c : Core) (n : BitVec 2) (v : Word) : (c.writeCb n v).yielded = c.yielded := rfl
@[simp] theorem Core.writeCb_cursor (c : Core) (n : BitVec 2) (v : Word) : (c.writeCb n v).cursor = c.cursor := rfl
@[simp] theorem Core.writeCb_issuing (c : Core) (n : BitVec 2) (v : Word) : (c.writeCb n v).issuing = c.issuing := rfl
@[simp] theorem Core.writeCb_holdOthers (c : Core) (n : BitVec 2) (v : Word) : (c.writeCb n v).holdOthers = c.holdOthers := rfl
@[simp] theorem Core.writeCb_qjump (c : Core) (n : BitVec 2) (v : Word) : (c.writeCb n v).qjump = c.qjump := rfl
@[simp] theorem Core.writeCb_phaseIdx (c : Core) (n : BitVec 2) (v : Word) : (c.writeCb n v).phaseIdx = c.phaseIdx := rfl
@[simp] theorem Core.writeCb_touched (c : Core) (n : BitVec 2) (v : Word) : (c.writeCb n v).touched = c.touched := rfl
@[simp] theorem Core.writeCb_protectedPhase (c : Core) (n : BitVec 2) (v : Word) : (c.writeCb n v).protectedPhase = c.protectedPhase := rfl
@[simp] theorem Core.writeCb_stepRem (c : Core) (n : BitVec 2) (v : Word) : (c.writeCb n v).stepRem = c.stepRem := rfl
@[simp] theorem Core.writeH_s (c : Core) (n : BitVec 5) (v : Handle) : (c.writeH n v).s = c.s := rfl
@[simp] theorem Core.writeH_l (c : Core) (n : BitVec 5) (v : Handle) : (c.writeH n v).l = c.l := rfl
@[simp] theorem Core.writeH_m (c : Core) (n : BitVec 5) (v : Handle) : (c.writeH n v).m = c.m := rfl
@[simp] theorem Core.writeH_w (c : Core) (n : BitVec 5) (v : Handle) : (c.writeH n v).w = c.w := rfl
@[simp] theorem Core.writeH_shadow (c : Core) (n : BitVec 5) (v : Handle) : (c.writeH n v).shadow = c.shadow := rfl
@[simp] theorem Core.writeH_y (c : Core) (n : BitVec 5) (v : Handle) : (c.writeH n v).y = c.y := rfl
@[simp] theorem Core.writeH_k (c : Core) (n : BitVec 5) (v : Handle) : (c.writeH n v).k = c.k := rfl
@[simp] theorem Core.writeH_q (c : Core) (n : BitVec 5) (v : Handle) : (c.writeH n v).q = c.q := rfl
@[simp] theorem Core.writeH_cb (c : Core) (n : BitVec 5) (v : Handle) : (c.writeH n v).cb = c.cb := rfl
@[simp] theorem Core.writeH_clag (c : Core) (n : BitVec 5) (v : Handle) : (c.writeH n v).clag = c.clag := rfl
@[simp] theorem Core.writeH_cir (c : Core) (n : BitVec 5) (v : Handle) : (c.writeH n v).cir = c.cir := rfl
@[simp] theorem Core.writeH_nest (c : Core) (n : BitVec 5) (v : Handle) : (c.writeH n v).nest = c.nest := rfl
@[simp] theorem Core.writeH_lcore (c : Core) (n : BitVec 5) (v : Handle) : (c.writeH n v).lcore = c.lcore := rfl
@[simp] theorem Core.writeH_pcore (c : Core) (n : BitVec 5) (v : Handle) : (c.writeH n v).pcore = c.pcore := rfl
@[simp] theorem Core.writeH_plane (c : Core) (n : BitVec 5) (v : Handle) : (c.writeH n v).plane = c.plane := rfl
@[simp] theorem Core.writeH_prio (c : Core) (n : BitVec 5) (v : Handle) : (c.writeH n v).prio = c.prio := rfl
@[simp] theorem Core.writeH_tenant (c : Core) (n : BitVec 5) (v : Handle) : (c.writeH n v).tenant = c.tenant := rfl
@[simp] theorem Core.writeH_traprec (c : Core) (n : BitVec 5) (v : Handle) : (c.writeH n v).traprec = c.traprec := rfl
@[simp] theorem Core.writeH_mxret (c : Core) (n : BitVec 5) (v : Handle) : (c.writeH n v).mxret = c.mxret := rfl
@[simp] theorem Core.writeH_ftab (c : Core) (n : BitVec 5) (v : Handle) : (c.writeH n v).ftab = c.ftab := rfl
@[simp] theorem Core.writeH_tol (c : Core) (n : BitVec 5) (v : Handle) : (c.writeH n v).tol = c.tol := rfl
@[simp] theorem Core.writeH_fij (c : Core) (n : BitVec 5) (v : Handle) : (c.writeH n v).fij = c.fij := rfl
@[simp] theorem Core.writeH_kend (c : Core) (n : BitVec 5) (v : Handle) : (c.writeH n v).kend = c.kend := rfl
@[simp] theorem Core.writeH_ls (c : Core) (n : BitVec 5) (v : Handle) : (c.writeH n v).ls = c.ls := rfl
@[simp] theorem Core.writeH_acc (c : Core) (n : BitVec 5) (v : Handle) : (c.writeH n v).acc = c.acc := rfl
@[simp] theorem Core.writeH_mr (c : Core) (n : BitVec 5) (v : Handle) : (c.writeH n v).mr = c.mr := rfl
@[simp] theorem Core.writeH_scale (c : Core) (n : BitVec 5) (v : Handle) : (c.writeH n v).scale = c.scale := rfl
@[simp] theorem Core.writeH_cbmem (c : Core) (n : BitVec 5) (v : Handle) : (c.writeH n v).cbmem = c.cbmem := rfl
@[simp] theorem Core.writeH_poison (c : Core) (n : BitVec 5) (v : Handle) : (c.writeH n v).poison = c.poison := rfl
@[simp] theorem Core.writeH_allocated (c : Core) (n : BitVec 5) (v : Handle) : (c.writeH n v).allocated = c.allocated := rfl
@[simp] theorem Core.writeH_owner (c : Core) (n : BitVec 5) (v : Handle) : (c.writeH n v).owner = c.owner := rfl
@[simp] theorem Core.writeH_accLanes (c : Core) (n : BitVec 5) (v : Handle) : (c.writeH n v).accLanes = c.accLanes := rfl
@[simp] theorem Core.writeH_mrLanes (c : Core) (n : BitVec 5) (v : Handle) : (c.writeH n v).mrLanes = c.mrLanes := rfl
@[simp] theorem Core.writeH_retry (c : Core) (n : BitVec 5) (v : Handle) : (c.writeH n v).retry = c.retry := rfl
@[simp] theorem Core.writeH_banks (c : Core) (n : BitVec 5) (v : Handle) : (c.writeH n v).banks = c.banks := rfl
@[simp] theorem Core.writeH_regions (c : Core) (n : BitVec 5) (v : Handle) : (c.writeH n v).regions = c.regions := rfl
@[simp] theorem Core.writeH_phase (c : Core) (n : BitVec 5) (v : Handle) : (c.writeH n v).phase = c.phase := rfl
@[simp] theorem Core.writeH_expTag (c : Core) (n : BitVec 5) (v : Handle) : (c.writeH n v).expTag = c.expTag := rfl
@[simp] theorem Core.writeH_swapCore (c : Core) (n : BitVec 5) (v : Handle) : (c.writeH n v).swapCore = c.swapCore := rfl
@[simp] theorem Core.writeH_swapTrunk (c : Core) (n : BitVec 5) (v : Handle) : (c.writeH n v).swapTrunk = c.swapTrunk := rfl
@[simp] theorem Core.writeH_fronts (c : Core) (n : BitVec 5) (v : Handle) : (c.writeH n v).fronts = c.fronts := rfl
@[simp] theorem Core.writeH_timeline (c : Core) (n : BitVec 5) (v : Handle) : (c.writeH n v).timeline = c.timeline := rfl
@[simp] theorem Core.writeH_made (c : Core) (n : BitVec 5) (v : Handle) : (c.writeH n v).made = c.made := rfl
@[simp] theorem Core.writeH_calendar (c : Core) (n : BitVec 5) (v : Handle) : (c.writeH n v).calendar = c.calendar := rfl
@[simp] theorem Core.writeH_bufs (c : Core) (n : BitVec 5) (v : Handle) : (c.writeH n v).bufs = c.bufs := rfl
@[simp] theorem Core.writeH_seq (c : Core) (n : BitVec 5) (v : Handle) : (c.writeH n v).seq = c.seq := rfl
@[simp] theorem Core.writeH_vecFree (c : Core) (n : BitVec 5) (v : Handle) : (c.writeH n v).vecFree = c.vecFree := rfl
@[simp] theorem Core.writeH_mxFree (c : Core) (n : BitVec 5) (v : Handle) : (c.writeH n v).mxFree = c.mxFree := rfl
@[simp] theorem Core.writeH_spillFree (c : Core) (n : BitVec 5) (v : Handle) : (c.writeH n v).spillFree = c.spillFree := rfl
@[simp] theorem Core.writeH_patchFree (c : Core) (n : BitVec 5) (v : Handle) : (c.writeH n v).patchFree = c.patchFree := rfl
@[simp] theorem Core.writeH_copyQ (c : Core) (n : BitVec 5) (v : Handle) : (c.writeH n v).copyQ = c.copyQ := rfl
@[simp] theorem Core.writeH_fills (c : Core) (n : BitVec 5) (v : Handle) : (c.writeH n v).fills = c.fills := rfl
@[simp] theorem Core.writeH_pseq (c : Core) (n : BitVec 5) (v : Handle) : (c.writeH n v).pseq = c.pseq := rfl
@[simp] theorem Core.writeH_kseq (c : Core) (n : BitVec 5) (v : Handle) : (c.writeH n v).kseq = c.kseq := rfl
@[simp] theorem Core.writeH_ops (c : Core) (n : BitVec 5) (v : Handle) : (c.writeH n v).ops = c.ops := rfl
@[simp] theorem Core.writeH_mine (c : Core) (n : BitVec 5) (v : Handle) : (c.writeH n v).mine = c.mine := rfl
@[simp] theorem Core.writeH_lastAnswer (c : Core) (n : BitVec 5) (v : Handle) : (c.writeH n v).lastAnswer = c.lastAnswer := rfl
@[simp] theorem Core.writeH_releases (c : Core) (n : BitVec 5) (v : Handle) : (c.writeH n v).releases = c.releases := rfl
@[simp] theorem Core.writeH_observed (c : Core) (n : BitVec 5) (v : Handle) : (c.writeH n v).observed = c.observed := rfl
@[simp] theorem Core.writeH_pftok (c : Core) (n : BitVec 5) (v : Handle) : (c.writeH n v).pftok = c.pftok := rfl
@[simp] theorem Core.writeH_kick (c : Core) (n : BitVec 5) (v : Handle) : (c.writeH n v).kick = c.kick := rfl
@[simp] theorem Core.writeH_freeze (c : Core) (n : BitVec 5) (v : Handle) : (c.writeH n v).freeze = c.freeze := rfl
@[simp] theorem Core.writeH_faultQ (c : Core) (n : BitVec 5) (v : Handle) : (c.writeH n v).faultQ = c.faultQ := rfl
@[simp] theorem Core.writeH_waitQ (c : Core) (n : BitVec 5) (v : Handle) : (c.writeH n v).waitQ = c.waitQ := rfl
@[simp] theorem Core.writeH_handling (c : Core) (n : BitVec 5) (v : Handle) : (c.writeH n v).handling = c.handling := rfl
@[simp] theorem Core.writeH_handled (c : Core) (n : BitVec 5) (v : Handle) : (c.writeH n v).handled = c.handled := rfl
@[simp] theorem Core.writeH_faultAt (c : Core) (n : BitVec 5) (v : Handle) : (c.writeH n v).faultAt = c.faultAt := rfl
@[simp] theorem Core.writeH_heldRec (c : Core) (n : BitVec 5) (v : Handle) : (c.writeH n v).heldRec = c.heldRec := rfl
@[simp] theorem Core.writeH_pending (c : Core) (n : BitVec 5) (v : Handle) : (c.writeH n v).pending = c.pending := rfl
@[simp] theorem Core.writeH_yielded (c : Core) (n : BitVec 5) (v : Handle) : (c.writeH n v).yielded = c.yielded := rfl
@[simp] theorem Core.writeH_cursor (c : Core) (n : BitVec 5) (v : Handle) : (c.writeH n v).cursor = c.cursor := rfl
@[simp] theorem Core.writeH_issuing (c : Core) (n : BitVec 5) (v : Handle) : (c.writeH n v).issuing = c.issuing := rfl
@[simp] theorem Core.writeH_holdOthers (c : Core) (n : BitVec 5) (v : Handle) : (c.writeH n v).holdOthers = c.holdOthers := rfl
@[simp] theorem Core.writeH_qjump (c : Core) (n : BitVec 5) (v : Handle) : (c.writeH n v).qjump = c.qjump := rfl
@[simp] theorem Core.writeH_phaseIdx (c : Core) (n : BitVec 5) (v : Handle) : (c.writeH n v).phaseIdx = c.phaseIdx := rfl
@[simp] theorem Core.writeH_touched (c : Core) (n : BitVec 5) (v : Handle) : (c.writeH n v).touched = c.touched := rfl
@[simp] theorem Core.writeH_protectedPhase (c : Core) (n : BitVec 5) (v : Handle) : (c.writeH n v).protectedPhase = c.protectedPhase := rfl
@[simp] theorem Core.writeH_stepRem (c : Core) (n : BitVec 5) (v : Handle) : (c.writeH n v).stepRem = c.stepRem := rfl
@[simp] theorem Core.writeQ_s (c : Core) (n : BitVec 4) (v : Token) : (c.writeQ n v).s = c.s := rfl
@[simp] theorem Core.writeQ_l (c : Core) (n : BitVec 4) (v : Token) : (c.writeQ n v).l = c.l := rfl
@[simp] theorem Core.writeQ_m (c : Core) (n : BitVec 4) (v : Token) : (c.writeQ n v).m = c.m := rfl
@[simp] theorem Core.writeQ_w (c : Core) (n : BitVec 4) (v : Token) : (c.writeQ n v).w = c.w := rfl
@[simp] theorem Core.writeQ_shadow (c : Core) (n : BitVec 4) (v : Token) : (c.writeQ n v).shadow = c.shadow := rfl
@[simp] theorem Core.writeQ_y (c : Core) (n : BitVec 4) (v : Token) : (c.writeQ n v).y = c.y := rfl
@[simp] theorem Core.writeQ_h (c : Core) (n : BitVec 4) (v : Token) : (c.writeQ n v).h = c.h := rfl
@[simp] theorem Core.writeQ_k (c : Core) (n : BitVec 4) (v : Token) : (c.writeQ n v).k = c.k := rfl
@[simp] theorem Core.writeQ_cb (c : Core) (n : BitVec 4) (v : Token) : (c.writeQ n v).cb = c.cb := rfl
@[simp] theorem Core.writeQ_clag (c : Core) (n : BitVec 4) (v : Token) : (c.writeQ n v).clag = c.clag := rfl
@[simp] theorem Core.writeQ_cir (c : Core) (n : BitVec 4) (v : Token) : (c.writeQ n v).cir = c.cir := rfl
@[simp] theorem Core.writeQ_nest (c : Core) (n : BitVec 4) (v : Token) : (c.writeQ n v).nest = c.nest := rfl
@[simp] theorem Core.writeQ_lcore (c : Core) (n : BitVec 4) (v : Token) : (c.writeQ n v).lcore = c.lcore := rfl
@[simp] theorem Core.writeQ_pcore (c : Core) (n : BitVec 4) (v : Token) : (c.writeQ n v).pcore = c.pcore := rfl
@[simp] theorem Core.writeQ_plane (c : Core) (n : BitVec 4) (v : Token) : (c.writeQ n v).plane = c.plane := rfl
@[simp] theorem Core.writeQ_prio (c : Core) (n : BitVec 4) (v : Token) : (c.writeQ n v).prio = c.prio := rfl
@[simp] theorem Core.writeQ_tenant (c : Core) (n : BitVec 4) (v : Token) : (c.writeQ n v).tenant = c.tenant := rfl
@[simp] theorem Core.writeQ_traprec (c : Core) (n : BitVec 4) (v : Token) : (c.writeQ n v).traprec = c.traprec := rfl
@[simp] theorem Core.writeQ_mxret (c : Core) (n : BitVec 4) (v : Token) : (c.writeQ n v).mxret = c.mxret := rfl
@[simp] theorem Core.writeQ_ftab (c : Core) (n : BitVec 4) (v : Token) : (c.writeQ n v).ftab = c.ftab := rfl
@[simp] theorem Core.writeQ_tol (c : Core) (n : BitVec 4) (v : Token) : (c.writeQ n v).tol = c.tol := rfl
@[simp] theorem Core.writeQ_fij (c : Core) (n : BitVec 4) (v : Token) : (c.writeQ n v).fij = c.fij := rfl
@[simp] theorem Core.writeQ_kend (c : Core) (n : BitVec 4) (v : Token) : (c.writeQ n v).kend = c.kend := rfl
@[simp] theorem Core.writeQ_ls (c : Core) (n : BitVec 4) (v : Token) : (c.writeQ n v).ls = c.ls := rfl
@[simp] theorem Core.writeQ_acc (c : Core) (n : BitVec 4) (v : Token) : (c.writeQ n v).acc = c.acc := rfl
@[simp] theorem Core.writeQ_mr (c : Core) (n : BitVec 4) (v : Token) : (c.writeQ n v).mr = c.mr := rfl
@[simp] theorem Core.writeQ_scale (c : Core) (n : BitVec 4) (v : Token) : (c.writeQ n v).scale = c.scale := rfl
@[simp] theorem Core.writeQ_cbmem (c : Core) (n : BitVec 4) (v : Token) : (c.writeQ n v).cbmem = c.cbmem := rfl
@[simp] theorem Core.writeQ_poison (c : Core) (n : BitVec 4) (v : Token) : (c.writeQ n v).poison = c.poison := rfl
@[simp] theorem Core.writeQ_allocated (c : Core) (n : BitVec 4) (v : Token) : (c.writeQ n v).allocated = c.allocated := rfl
@[simp] theorem Core.writeQ_owner (c : Core) (n : BitVec 4) (v : Token) : (c.writeQ n v).owner = c.owner := rfl
@[simp] theorem Core.writeQ_accLanes (c : Core) (n : BitVec 4) (v : Token) : (c.writeQ n v).accLanes = c.accLanes := rfl
@[simp] theorem Core.writeQ_mrLanes (c : Core) (n : BitVec 4) (v : Token) : (c.writeQ n v).mrLanes = c.mrLanes := rfl
@[simp] theorem Core.writeQ_retry (c : Core) (n : BitVec 4) (v : Token) : (c.writeQ n v).retry = c.retry := rfl
@[simp] theorem Core.writeQ_banks (c : Core) (n : BitVec 4) (v : Token) : (c.writeQ n v).banks = c.banks := rfl
@[simp] theorem Core.writeQ_regions (c : Core) (n : BitVec 4) (v : Token) : (c.writeQ n v).regions = c.regions := rfl
@[simp] theorem Core.writeQ_phase (c : Core) (n : BitVec 4) (v : Token) : (c.writeQ n v).phase = c.phase := rfl
@[simp] theorem Core.writeQ_expTag (c : Core) (n : BitVec 4) (v : Token) : (c.writeQ n v).expTag = c.expTag := rfl
@[simp] theorem Core.writeQ_swapCore (c : Core) (n : BitVec 4) (v : Token) : (c.writeQ n v).swapCore = c.swapCore := rfl
@[simp] theorem Core.writeQ_swapTrunk (c : Core) (n : BitVec 4) (v : Token) : (c.writeQ n v).swapTrunk = c.swapTrunk := rfl
@[simp] theorem Core.writeQ_fronts (c : Core) (n : BitVec 4) (v : Token) : (c.writeQ n v).fronts = c.fronts := rfl
@[simp] theorem Core.writeQ_timeline (c : Core) (n : BitVec 4) (v : Token) : (c.writeQ n v).timeline = c.timeline := rfl
@[simp] theorem Core.writeQ_made (c : Core) (n : BitVec 4) (v : Token) : (c.writeQ n v).made = c.made := rfl
@[simp] theorem Core.writeQ_calendar (c : Core) (n : BitVec 4) (v : Token) : (c.writeQ n v).calendar = c.calendar := rfl
@[simp] theorem Core.writeQ_bufs (c : Core) (n : BitVec 4) (v : Token) : (c.writeQ n v).bufs = c.bufs := rfl
@[simp] theorem Core.writeQ_seq (c : Core) (n : BitVec 4) (v : Token) : (c.writeQ n v).seq = c.seq := rfl
@[simp] theorem Core.writeQ_vecFree (c : Core) (n : BitVec 4) (v : Token) : (c.writeQ n v).vecFree = c.vecFree := rfl
@[simp] theorem Core.writeQ_mxFree (c : Core) (n : BitVec 4) (v : Token) : (c.writeQ n v).mxFree = c.mxFree := rfl
@[simp] theorem Core.writeQ_spillFree (c : Core) (n : BitVec 4) (v : Token) : (c.writeQ n v).spillFree = c.spillFree := rfl
@[simp] theorem Core.writeQ_patchFree (c : Core) (n : BitVec 4) (v : Token) : (c.writeQ n v).patchFree = c.patchFree := rfl
@[simp] theorem Core.writeQ_copyQ (c : Core) (n : BitVec 4) (v : Token) : (c.writeQ n v).copyQ = c.copyQ := rfl
@[simp] theorem Core.writeQ_fills (c : Core) (n : BitVec 4) (v : Token) : (c.writeQ n v).fills = c.fills := rfl
@[simp] theorem Core.writeQ_pseq (c : Core) (n : BitVec 4) (v : Token) : (c.writeQ n v).pseq = c.pseq := rfl
@[simp] theorem Core.writeQ_kseq (c : Core) (n : BitVec 4) (v : Token) : (c.writeQ n v).kseq = c.kseq := rfl
@[simp] theorem Core.writeQ_ops (c : Core) (n : BitVec 4) (v : Token) : (c.writeQ n v).ops = c.ops := rfl
@[simp] theorem Core.writeQ_mine (c : Core) (n : BitVec 4) (v : Token) : (c.writeQ n v).mine = c.mine := rfl
@[simp] theorem Core.writeQ_lastAnswer (c : Core) (n : BitVec 4) (v : Token) : (c.writeQ n v).lastAnswer = c.lastAnswer := rfl
@[simp] theorem Core.writeQ_releases (c : Core) (n : BitVec 4) (v : Token) : (c.writeQ n v).releases = c.releases := rfl
@[simp] theorem Core.writeQ_observed (c : Core) (n : BitVec 4) (v : Token) : (c.writeQ n v).observed = c.observed := rfl
@[simp] theorem Core.writeQ_pftok (c : Core) (n : BitVec 4) (v : Token) : (c.writeQ n v).pftok = c.pftok := rfl
@[simp] theorem Core.writeQ_kick (c : Core) (n : BitVec 4) (v : Token) : (c.writeQ n v).kick = c.kick := rfl
@[simp] theorem Core.writeQ_freeze (c : Core) (n : BitVec 4) (v : Token) : (c.writeQ n v).freeze = c.freeze := rfl
@[simp] theorem Core.writeQ_faultQ (c : Core) (n : BitVec 4) (v : Token) : (c.writeQ n v).faultQ = c.faultQ := rfl
@[simp] theorem Core.writeQ_waitQ (c : Core) (n : BitVec 4) (v : Token) : (c.writeQ n v).waitQ = c.waitQ := rfl
@[simp] theorem Core.writeQ_handling (c : Core) (n : BitVec 4) (v : Token) : (c.writeQ n v).handling = c.handling := rfl
@[simp] theorem Core.writeQ_handled (c : Core) (n : BitVec 4) (v : Token) : (c.writeQ n v).handled = c.handled := rfl
@[simp] theorem Core.writeQ_faultAt (c : Core) (n : BitVec 4) (v : Token) : (c.writeQ n v).faultAt = c.faultAt := rfl
@[simp] theorem Core.writeQ_heldRec (c : Core) (n : BitVec 4) (v : Token) : (c.writeQ n v).heldRec = c.heldRec := rfl
@[simp] theorem Core.writeQ_pending (c : Core) (n : BitVec 4) (v : Token) : (c.writeQ n v).pending = c.pending := rfl
@[simp] theorem Core.writeQ_yielded (c : Core) (n : BitVec 4) (v : Token) : (c.writeQ n v).yielded = c.yielded := rfl
@[simp] theorem Core.writeQ_cursor (c : Core) (n : BitVec 4) (v : Token) : (c.writeQ n v).cursor = c.cursor := rfl
@[simp] theorem Core.writeQ_issuing (c : Core) (n : BitVec 4) (v : Token) : (c.writeQ n v).issuing = c.issuing := rfl
@[simp] theorem Core.writeQ_holdOthers (c : Core) (n : BitVec 4) (v : Token) : (c.writeQ n v).holdOthers = c.holdOthers := rfl
@[simp] theorem Core.writeQ_qjump (c : Core) (n : BitVec 4) (v : Token) : (c.writeQ n v).qjump = c.qjump := rfl
@[simp] theorem Core.writeQ_phaseIdx (c : Core) (n : BitVec 4) (v : Token) : (c.writeQ n v).phaseIdx = c.phaseIdx := rfl
@[simp] theorem Core.writeQ_touched (c : Core) (n : BitVec 4) (v : Token) : (c.writeQ n v).touched = c.touched := rfl
@[simp] theorem Core.writeQ_protectedPhase (c : Core) (n : BitVec 4) (v : Token) : (c.writeQ n v).protectedPhase = c.protectedPhase := rfl
@[simp] theorem Core.writeQ_stepRem (c : Core) (n : BitVec 4) (v : Token) : (c.writeQ n v).stepRem = c.stepRem := rfl

/-! Registers of a cluster -/

@[simp] theorem ClusterSt.writeA_g (k : ClusterSt) (n : BitVec 4) (v : BitVec 32) : (k.writeA n v).g = k.g := rfl
@[simp] theorem ClusterSt.writeA_p (k : ClusterSt) (n : BitVec 4) (v : BitVec 32) : (k.writeA n v).p = k.p := rfl
@[simp] theorem ClusterSt.writeA_sec (k : ClusterSt) (n : BitVec 4) (v : BitVec 32) : (k.writeA n v).sec = k.sec := rfl
@[simp] theorem ClusterSt.writeA_word (k : ClusterSt) (n : BitVec 4) (v : BitVec 32) : (k.writeA n v).word = k.word := rfl
@[simp] theorem ClusterSt.writeA_hdr (k : ClusterSt) (n : BitVec 4) (v : BitVec 32) : (k.writeA n v).hdr = k.hdr := rfl
@[simp] theorem ClusterSt.writeA_leftHdr (k : ClusterSt) (n : BitVec 4) (v : BitVec 32) : (k.writeA n v).leftHdr = k.leftHdr := rfl
@[simp] theorem ClusterSt.writeA_entry (k : ClusterSt) (n : BitVec 4) (v : BitVec 32) : (k.writeA n v).entry = k.entry := rfl
@[simp] theorem ClusterSt.writeA_idleRem (k : ClusterSt) (n : BitVec 4) (v : BitVec 32) : (k.writeA n v).idleRem = k.idleRem := rfl
@[simp] theorem ClusterSt.writeA_mode (k : ClusterSt) (n : BitVec 4) (v : BitVec 32) : (k.writeA n v).mode = k.mode := rfl
@[simp] theorem ClusterSt.writeA_steer (k : ClusterSt) (n : BitVec 4) (v : BitVec 32) : (k.writeA n v).steer = k.steer := rfl
@[simp] theorem ClusterSt.writeA_steerAt (k : ClusterSt) (n : BitVec 4) (v : BitVec 32) : (k.writeA n v).steerAt = k.steerAt := rfl
@[simp] theorem ClusterSt.writeA_lret (k : ClusterSt) (n : BitVec 4) (v : BitVec 32) : (k.writeA n v).lret = k.lret := rfl
@[simp] theorem ClusterSt.writeA_any (k : ClusterSt) (n : BitVec 4) (v : BitVec 32) : (k.writeA n v).any = k.any := rfl
@[simp] theorem ClusterSt.writeA_lretWas (k : ClusterSt) (n : BitVec 4) (v : BitVec 32) : (k.writeA n v).lretWas = k.lretWas := rfl
@[simp] theorem ClusterSt.writeA_anyWas (k : ClusterSt) (n : BitVec 4) (v : BitVec 32) : (k.writeA n v).anyWas = k.anyWas := rfl
@[simp] theorem ClusterSt.writeA_lretAt (k : ClusterSt) (n : BitVec 4) (v : BitVec 32) : (k.writeA n v).lretAt = k.lretAt := rfl
@[simp] theorem ClusterSt.writeA_seqAt (k : ClusterSt) (n : BitVec 4) (v : BitVec 32) : (k.writeA n v).seqAt = k.seqAt := rfl
@[simp] theorem ClusterSt.writeA_anyAt (k : ClusterSt) (n : BitVec 4) (v : BitVec 32) : (k.writeA n v).anyAt = k.anyAt := rfl
@[simp] theorem ClusterSt.writeA_runAt (k : ClusterSt) (n : BitVec 4) (v : BitVec 32) : (k.writeA n v).runAt = k.runAt := rfl
@[simp] theorem ClusterSt.writeA_wait (k : ClusterSt) (n : BitVec 4) (v : BitVec 32) : (k.writeA n v).wait = k.wait := rfl
@[simp] theorem ClusterSt.writeA_tbase (k : ClusterSt) (n : BitVec 4) (v : BitVec 32) : (k.writeA n v).tbase = k.tbase := rfl
@[simp] theorem ClusterSt.writeA_runStart (k : ClusterSt) (n : BitVec 4) (v : BitVec 32) : (k.writeA n v).runStart = k.runStart := rfl
@[simp] theorem ClusterSt.writeA_unchecked (k : ClusterSt) (n : BitVec 4) (v : BitVec 32) : (k.writeA n v).unchecked = k.unchecked := rfl
@[simp] theorem ClusterSt.writeA_entered (k : ClusterSt) (n : BitVec 4) (v : BitVec 32) : (k.writeA n v).entered = k.entered := rfl
@[simp] theorem ClusterSt.writeA_issuedNow (k : ClusterSt) (n : BitVec 4) (v : BitVec 32) : (k.writeA n v).issuedNow = k.issuedNow := rfl
@[simp] theorem ClusterSt.writeA_woke (k : ClusterSt) (n : BitVec 4) (v : BitVec 32) : (k.writeA n v).woke = k.woke := rfl
@[simp] theorem ClusterSt.retire_g (k : ClusterSt) : (k.retire).g = k.g := rfl
@[simp] theorem ClusterSt.retire_a (k : ClusterSt) : (k.retire).a = k.a := rfl
@[simp] theorem ClusterSt.retire_p (k : ClusterSt) : (k.retire).p = k.p := rfl
@[simp] theorem ClusterSt.retire_sec (k : ClusterSt) : (k.retire).sec = k.sec := rfl
@[simp] theorem ClusterSt.retire_word (k : ClusterSt) : (k.retire).word = k.word := rfl
@[simp] theorem ClusterSt.retire_hdr (k : ClusterSt) : (k.retire).hdr = k.hdr := rfl
@[simp] theorem ClusterSt.retire_leftHdr (k : ClusterSt) : (k.retire).leftHdr = k.leftHdr := rfl
@[simp] theorem ClusterSt.retire_entry (k : ClusterSt) : (k.retire).entry = k.entry := rfl
@[simp] theorem ClusterSt.retire_idleRem (k : ClusterSt) : (k.retire).idleRem = k.idleRem := rfl
@[simp] theorem ClusterSt.retire_mode (k : ClusterSt) : (k.retire).mode = k.mode := rfl
@[simp] theorem ClusterSt.retire_steer (k : ClusterSt) : (k.retire).steer = k.steer := rfl
@[simp] theorem ClusterSt.retire_steerAt (k : ClusterSt) : (k.retire).steerAt = k.steerAt := rfl
@[simp] theorem ClusterSt.retire_lretWas (k : ClusterSt) : (k.retire).lretWas = k.lretWas := rfl
@[simp] theorem ClusterSt.retire_anyWas (k : ClusterSt) : (k.retire).anyWas = k.anyWas := rfl
@[simp] theorem ClusterSt.retire_lretAt (k : ClusterSt) : (k.retire).lretAt = k.lretAt := rfl
@[simp] theorem ClusterSt.retire_seqAt (k : ClusterSt) : (k.retire).seqAt = k.seqAt := rfl
@[simp] theorem ClusterSt.retire_anyAt (k : ClusterSt) : (k.retire).anyAt = k.anyAt := rfl
@[simp] theorem ClusterSt.retire_runAt (k : ClusterSt) : (k.retire).runAt = k.runAt := rfl
@[simp] theorem ClusterSt.retire_wait (k : ClusterSt) : (k.retire).wait = k.wait := rfl
@[simp] theorem ClusterSt.retire_tbase (k : ClusterSt) : (k.retire).tbase = k.tbase := rfl
@[simp] theorem ClusterSt.retire_runStart (k : ClusterSt) : (k.retire).runStart = k.runStart := rfl
@[simp] theorem ClusterSt.retire_unchecked (k : ClusterSt) : (k.retire).unchecked = k.unchecked := rfl
@[simp] theorem ClusterSt.retire_entered (k : ClusterSt) : (k.retire).entered = k.entered := rfl
@[simp] theorem ClusterSt.retire_issuedNow (k : ClusterSt) : (k.retire).issuedNow = k.issuedNow := rfl
@[simp] theorem ClusterSt.retire_woke (k : ClusterSt) : (k.retire).woke = k.woke := rfl

/-! Free values and the log of waits -/

/-- Noting the end of a wait changes only what is kept of waits (R370). -/
theorem State.noteEnd_eq (s : State) (w : Outside) : ∃ l, s.noteEnd w = { s with waitLog := l } := by
  unfold State.noteEnd; split
  · exact ⟨s.waitLog, rfl⟩
  · exact ⟨_, rfl⟩


@[simp] theorem State.noteEnd_core (s : State) (w : Outside) : (s.noteEnd w).core = s.core := by unfold State.noteEnd; split <;> rfl
@[simp] theorem State.noteEnd_trunk (s : State) (w : Outside) : (s.noteEnd w).trunk = s.trunk := by unfold State.noteEnd; split <;> rfl
@[simp] theorem State.noteEnd_boot (s : State) (w : Outside) : (s.noteEnd w).boot = s.boot := by unfold State.noteEnd; split <;> rfl
@[simp] theorem State.noteEnd_bubble (s : State) (w : Outside) : (s.noteEnd w).bubble = s.bubble := by unfold State.noteEnd; split <;> rfl
@[simp] theorem State.noteEnd_drawerL (s : State) (w : Outside) : (s.noteEnd w).drawerL = s.drawerL := by unfold State.noteEnd; split <;> rfl
@[simp] theorem State.noteEnd_slots (s : State) (w : Outside) : (s.noteEnd w).slots = s.slots := by unfold State.noteEnd; split <;> rfl
@[simp] theorem State.noteEnd_retrainLimit (s : State) (w : Outside) : (s.noteEnd w).retrainLimit = s.retrainLimit := by unfold State.noteEnd; split <;> rfl
@[simp] theorem State.noteEnd_origin (s : State) (w : Outside) : (s.noteEnd w).origin = s.origin := by unfold State.noteEnd; split <;> rfl
@[simp] theorem State.noteEnd_rollbackArea (s : State) (w : Outside) : (s.noteEnd w).rollbackArea = s.rollbackArea := by unfold State.noteEnd; split <;> rfl
@[simp] theorem State.noteEnd_spillQueueSize (s : State) (w : Outside) : (s.noteEnd w).spillQueueSize = s.spillQueueSize := by unfold State.noteEnd; split <;> rfl
@[simp] theorem State.noteEnd_areas (s : State) (w : Outside) : (s.noteEnd w).areas = s.areas := by unfold State.noteEnd; split <;> rfl
@[simp] theorem State.noteEnd_monotonic (s : State) (w : Outside) : (s.noteEnd w).monotonic = s.monotonic := by unfold State.noteEnd; split <;> rfl
@[simp] theorem State.noteEnd_measurements (s : State) (w : Outside) : (s.noteEnd w).measurements = s.measurements := by unfold State.noteEnd; split <;> rfl
@[simp] theorem State.noteEnd_records (s : State) (w : Outside) : (s.noteEnd w).records = s.records := by unfold State.noteEnd; split <;> rfl
@[simp] theorem State.noteEnd_attestKey (s : State) (w : Outside) : (s.noteEnd w).attestKey = s.attestKey := by unfold State.noteEnd; split <;> rfl
@[simp] theorem State.noteEnd_identity (s : State) (w : Outside) : (s.noteEnd w).identity = s.identity := by unfold State.noteEnd; split <;> rfl
@[simp] theorem State.noteEnd_identityCert (s : State) (w : Outside) : (s.noteEnd w).identityCert = s.identityCert := by unfold State.noteEnd; split <;> rfl
@[simp] theorem State.noteEnd_planes (s : State) (w : Outside) : (s.noteEnd w).planes = s.planes := by unfold State.noteEnd; split <;> rfl
@[simp] theorem State.noteEnd_planeOf (s : State) (w : Outside) : (s.noteEnd w).planeOf = s.planeOf := by unfold State.noteEnd; split <;> rfl
@[simp] theorem State.noteEnd_gmem (s : State) (w : Outside) : (s.noteEnd w).gmem = s.gmem := by unfold State.noteEnd; split <;> rfl
@[simp] theorem State.noteEnd_gpoison (s : State) (w : Outside) : (s.noteEnd w).gpoison = s.gpoison := by unfold State.noteEnd; split <;> rfl
@[simp] theorem State.noteEnd_pages (s : State) (w : Outside) : (s.noteEnd w).pages = s.pages := by unfold State.noteEnd; split <;> rfl
@[simp] theorem State.noteEnd_tensors (s : State) (w : Outside) : (s.noteEnd w).tensors = s.tensors := by unfold State.noteEnd; split <;> rfl
@[simp] theorem State.noteEnd_cache (s : State) (w : Outside) : (s.noteEnd w).cache = s.cache := by unfold State.noteEnd; split <;> rfl
@[simp] theorem State.noteEnd_dead (s : State) (w : Outside) : (s.noteEnd w).dead = s.dead := by unfold State.noteEnd; split <;> rfl
@[simp] theorem State.noteEnd_pfops (s : State) (w : Outside) : (s.noteEnd w).pfops = s.pfops := by unfold State.noteEnd; split <;> rfl
@[simp] theorem State.noteEnd_groupsDown (s : State) (w : Outside) : (s.noteEnd w).groupsDown = s.groupsDown := by unfold State.noteEnd; split <;> rfl
@[simp] theorem State.noteEnd_retraining (s : State) (w : Outside) : (s.noteEnd w).retraining = s.retraining := by unfold State.noteEnd; split <;> rfl
@[simp] theorem State.noteEnd_slotWrites (s : State) (w : Outside) : (s.noteEnd w).slotWrites = s.slotWrites := by unfold State.noteEnd; split <;> rfl
@[simp] theorem State.noteEnd_shards (s : State) (w : Outside) : (s.noteEnd w).shards = s.shards := by unfold State.noteEnd; split <;> rfl
@[simp] theorem State.noteEnd_checkpoints (s : State) (w : Outside) : (s.noteEnd w).checkpoints = s.checkpoints := by unfold State.noteEnd; split <;> rfl
@[simp] theorem State.noteEnd_manifests (s : State) (w : Outside) : (s.noteEnd w).manifests = s.manifests := by unfold State.noteEnd; split <;> rfl
@[simp] theorem State.noteEnd_relHist (s : State) (w : Outside) : (s.noteEnd w).relHist = s.relHist := by unfold State.noteEnd; split <;> rfl
@[simp] theorem State.noteEnd_flags (s : State) (w : Outside) : (s.noteEnd w).flags = s.flags := by unfold State.noteEnd; split <;> rfl
@[simp] theorem State.noteEnd_flagHist (s : State) (w : Outside) : (s.noteEnd w).flagHist = s.flagHist := by unfold State.noteEnd; split <;> rfl
@[simp] theorem State.noteEnd_log (s : State) (w : Outside) : (s.noteEnd w).log = s.log := by unfold State.noteEnd; split <;> rfl
@[simp] theorem State.noteEnd_opLog (s : State) (w : Outside) : (s.noteEnd w).opLog = s.opLog := by unfold State.noteEnd; split <;> rfl
@[simp] theorem State.noteEnd_sliceLog (s : State) (w : Outside) : (s.noteEnd w).sliceLog = s.sliceLog := by unfold State.noteEnd; split <;> rfl
@[simp] theorem State.noteEnd_madeLog (s : State) (w : Outside) : (s.noteEnd w).madeLog = s.madeLog := by unfold State.noteEnd; split <;> rfl
@[simp] theorem State.noteEnd_past (s : State) (w : Outside) : (s.noteEnd w).past = s.past := by unfold State.noteEnd; split <;> rfl
@[simp] theorem State.noteEnd_freedLog (s : State) (w : Outside) : (s.noteEnd w).freedLog = s.freedLog := by unfold State.noteEnd; split <;> rfl
@[simp] theorem State.noteEnd_readLog (s : State) (w : Outside) : (s.noteEnd w).readLog = s.readLog := by unfold State.noteEnd; split <;> rfl
@[simp] theorem State.noteEnd_revLog (s : State) (w : Outside) : (s.noteEnd w).revLog = s.revLog := by unfold State.noteEnd; split <;> rfl
@[simp] theorem State.noteEnd_stallLog (s : State) (w : Outside) : (s.noteEnd w).stallLog = s.stallLog := by unfold State.noteEnd; split <;> rfl
@[simp] theorem State.noteEnd_queueLog (s : State) (w : Outside) : (s.noteEnd w).queueLog = s.queueLog := by unfold State.noteEnd; split <;> rfl
@[simp] theorem State.noteEnd_markers (s : State) (w : Outside) : (s.noteEnd w).markers = s.markers := by unfold State.noteEnd; split <;> rfl
@[simp] theorem State.noteEnd_replayUntil (s : State) (w : Outside) : (s.noteEnd w).replayUntil = s.replayUntil := by unfold State.noteEnd; split <;> rfl
@[simp] theorem State.noteEnd_faultBuf (s : State) (w : Outside) : (s.noteEnd w).faultBuf = s.faultBuf := by unfold State.noteEnd; split <;> rfl
@[simp] theorem State.noteEnd_recSeq (s : State) (w : Outside) : (s.noteEnd w).recSeq = s.recSeq := by unfold State.noteEnd; split <;> rfl
@[simp] theorem State.noteEnd_overflow (s : State) (w : Outside) : (s.noteEnd w).overflow = s.overflow := by unfold State.noteEnd; split <;> rfl
@[simp] theorem State.noteEnd_infoDropped (s : State) (w : Outside) : (s.noteEnd w).infoDropped = s.infoDropped := by unfold State.noteEnd; split <;> rfl
@[simp] theorem State.noteEnd_overflowTold (s : State) (w : Outside) : (s.noteEnd w).overflowTold = s.overflowTold := by unfold State.noteEnd; split <;> rfl
@[simp] theorem State.noteEnd_launches (s : State) (w : Outside) : (s.noteEnd w).launches = s.launches := by unfold State.noteEnd; split <;> rfl
@[simp] theorem State.noteEnd_task (s : State) (w : Outside) : (s.noteEnd w).task = s.task := by unfold State.noteEnd; split <;> rfl
@[simp] theorem State.noteEnd_retiring (s : State) (w : Outside) : (s.noteEnd w).retiring = s.retiring := by unfold State.noteEnd; split <;> rfl
@[simp] theorem State.noteEnd_contextLaunch (s : State) (w : Outside) : (s.noteEnd w).contextLaunch = s.contextLaunch := by unfold State.noteEnd; split <;> rfl
@[simp] theorem State.noteEnd_pool (s : State) (w : Outside) : (s.noteEnd w).pool = s.pool := by unfold State.noteEnd; split <;> rfl
@[simp] theorem State.noteEnd_spillQ (s : State) (w : Outside) : (s.noteEnd w).spillQ = s.spillQ := by unfold State.noteEnd; split <;> rfl
@[simp] theorem State.noteEnd_journal (s : State) (w : Outside) : (s.noteEnd w).journal = s.journal := by unfold State.noteEnd; split <;> rfl
@[simp] theorem State.noteEnd_jseq (s : State) (w : Outside) : (s.noteEnd w).jseq = s.jseq := by unfold State.noteEnd; split <;> rfl
@[simp] theorem State.noteEnd_crowns (s : State) (w : Outside) : (s.noteEnd w).crowns = s.crowns := by unfold State.noteEnd; split <;> rfl
@[simp] theorem State.noteEnd_crownDown (s : State) (w : Outside) : (s.noteEnd w).crownDown = s.crownDown := by unfold State.noteEnd; split <;> rfl
@[simp] theorem State.noteEnd_takeoverAt (s : State) (w : Outside) : (s.noteEnd w).takeoverAt = s.takeoverAt := by unfold State.noteEnd; split <;> rfl
@[simp] theorem State.noteEnd_heldRetirements (s : State) (w : Outside) : (s.noteEnd w).heldRetirements = s.heldRetirements := by unfold State.noteEnd; split <;> rfl
@[simp] theorem State.noteEnd_dispatchAt (s : State) (w : Outside) : (s.noteEnd w).dispatchAt = s.dispatchAt := by unfold State.noteEnd; split <;> rfl
@[simp] theorem State.noteEnd_loadAt (s : State) (w : Outside) : (s.noteEnd w).loadAt = s.loadAt := by unfold State.noteEnd; split <;> rfl
@[simp] theorem State.noteEnd_saved (s : State) (w : Outside) : (s.noteEnd w).saved = s.saved := by unfold State.noteEnd; split <;> rfl
@[simp] theorem State.noteEnd_snaps (s : State) (w : Outside) : (s.noteEnd w).snaps = s.snaps := by unfold State.noteEnd; split <;> rfl
@[simp] theorem State.noteEnd_tenants (s : State) (w : Outside) : (s.noteEnd w).tenants = s.tenants := by unfold State.noteEnd; split <;> rfl
@[simp] theorem State.noteEnd_hmaj (s : State) (w : Outside) : (s.noteEnd w).hmaj = s.hmaj := by unfold State.noteEnd; split <;> rfl
@[simp] theorem State.noteEnd_hmin (s : State) (w : Outside) : (s.noteEnd w).hmin = s.hmin := by unfold State.noteEnd; split <;> rfl
@[simp] theorem State.noteEnd_hacc (s : State) (w : Outside) : (s.noteEnd w).hacc = s.hacc := by unfold State.noteEnd; split <;> rfl
@[simp] theorem State.noteEnd_stations (s : State) (w : Outside) : (s.noteEnd w).stations = s.stations := by unfold State.noteEnd; split <;> rfl
@[simp] theorem State.noteEnd_members (s : State) (w : Outside) : (s.noteEnd w).members = s.members := by unfold State.noteEnd; split <;> rfl
@[simp] theorem State.noteEnd_podAcks (s : State) (w : Outside) : (s.noteEnd w).podAcks = s.podAcks := by unfold State.noteEnd; split <;> rfl
@[simp] theorem State.noteEnd_heldPackets (s : State) (w : Outside) : (s.noteEnd w).heldPackets = s.heldPackets := by unfold State.noteEnd; split <;> rfl
@[simp] theorem State.noteEnd_mgmtLog (s : State) (w : Outside) : (s.noteEnd w).mgmtLog = s.mgmtLog := by unfold State.noteEnd; split <;> rfl
@[simp] theorem State.noteEnd_mgmtReports (s : State) (w : Outside) : (s.noteEnd w).mgmtReports = s.mgmtReports := by unfold State.noteEnd; split <;> rfl
@[simp] theorem State.noteEnd_debugger (s : State) (w : Outside) : (s.noteEnd w).debugger = s.debugger := by unfold State.noteEnd; split <;> rfl
@[simp] theorem State.noteEnd_agenda (s : State) (w : Outside) : (s.noteEnd w).agenda = s.agenda := by unfold State.noteEnd; split <;> rfl
@[simp] theorem State.noteEnd_free (s : State) (w : Outside) : (s.noteEnd w).free = s.free := by unfold State.noteEnd; split <;> rfl
@[simp] theorem State.draw_core (s : State) : s.draw.2.core = s.core := rfl
@[simp] theorem State.draw_trunk (s : State) : s.draw.2.trunk = s.trunk := rfl
@[simp] theorem State.draw_boot (s : State) : s.draw.2.boot = s.boot := rfl
@[simp] theorem State.draw_bubble (s : State) : s.draw.2.bubble = s.bubble := rfl
@[simp] theorem State.draw_drawerL (s : State) : s.draw.2.drawerL = s.drawerL := rfl
@[simp] theorem State.draw_slots (s : State) : s.draw.2.slots = s.slots := rfl
@[simp] theorem State.draw_retrainLimit (s : State) : s.draw.2.retrainLimit = s.retrainLimit := rfl
@[simp] theorem State.draw_origin (s : State) : s.draw.2.origin = s.origin := rfl
@[simp] theorem State.draw_rollbackArea (s : State) : s.draw.2.rollbackArea = s.rollbackArea := rfl
@[simp] theorem State.draw_spillQueueSize (s : State) : s.draw.2.spillQueueSize = s.spillQueueSize := rfl
@[simp] theorem State.draw_areas (s : State) : s.draw.2.areas = s.areas := rfl
@[simp] theorem State.draw_monotonic (s : State) : s.draw.2.monotonic = s.monotonic := rfl
@[simp] theorem State.draw_measurements (s : State) : s.draw.2.measurements = s.measurements := rfl
@[simp] theorem State.draw_records (s : State) : s.draw.2.records = s.records := rfl
@[simp] theorem State.draw_attestKey (s : State) : s.draw.2.attestKey = s.attestKey := rfl
@[simp] theorem State.draw_identity (s : State) : s.draw.2.identity = s.identity := rfl
@[simp] theorem State.draw_identityCert (s : State) : s.draw.2.identityCert = s.identityCert := rfl
@[simp] theorem State.draw_planes (s : State) : s.draw.2.planes = s.planes := rfl
@[simp] theorem State.draw_planeOf (s : State) : s.draw.2.planeOf = s.planeOf := rfl
@[simp] theorem State.draw_gmem (s : State) : s.draw.2.gmem = s.gmem := rfl
@[simp] theorem State.draw_gpoison (s : State) : s.draw.2.gpoison = s.gpoison := rfl
@[simp] theorem State.draw_pages (s : State) : s.draw.2.pages = s.pages := rfl
@[simp] theorem State.draw_tensors (s : State) : s.draw.2.tensors = s.tensors := rfl
@[simp] theorem State.draw_cache (s : State) : s.draw.2.cache = s.cache := rfl
@[simp] theorem State.draw_dead (s : State) : s.draw.2.dead = s.dead := rfl
@[simp] theorem State.draw_pfops (s : State) : s.draw.2.pfops = s.pfops := rfl
@[simp] theorem State.draw_groupsDown (s : State) : s.draw.2.groupsDown = s.groupsDown := rfl
@[simp] theorem State.draw_retraining (s : State) : s.draw.2.retraining = s.retraining := rfl
@[simp] theorem State.draw_slotWrites (s : State) : s.draw.2.slotWrites = s.slotWrites := rfl
@[simp] theorem State.draw_shards (s : State) : s.draw.2.shards = s.shards := rfl
@[simp] theorem State.draw_checkpoints (s : State) : s.draw.2.checkpoints = s.checkpoints := rfl
@[simp] theorem State.draw_manifests (s : State) : s.draw.2.manifests = s.manifests := rfl
@[simp] theorem State.draw_relHist (s : State) : s.draw.2.relHist = s.relHist := rfl
@[simp] theorem State.draw_flags (s : State) : s.draw.2.flags = s.flags := rfl
@[simp] theorem State.draw_flagHist (s : State) : s.draw.2.flagHist = s.flagHist := rfl
@[simp] theorem State.draw_log (s : State) : s.draw.2.log = s.log := rfl
@[simp] theorem State.draw_opLog (s : State) : s.draw.2.opLog = s.opLog := rfl
@[simp] theorem State.draw_sliceLog (s : State) : s.draw.2.sliceLog = s.sliceLog := rfl
@[simp] theorem State.draw_madeLog (s : State) : s.draw.2.madeLog = s.madeLog := rfl
@[simp] theorem State.draw_past (s : State) : s.draw.2.past = s.past := rfl
@[simp] theorem State.draw_freedLog (s : State) : s.draw.2.freedLog = s.freedLog := rfl
@[simp] theorem State.draw_readLog (s : State) : s.draw.2.readLog = s.readLog := rfl
@[simp] theorem State.draw_waitLog (s : State) : s.draw.2.waitLog = s.waitLog := rfl
@[simp] theorem State.draw_revLog (s : State) : s.draw.2.revLog = s.revLog := rfl
@[simp] theorem State.draw_stallLog (s : State) : s.draw.2.stallLog = s.stallLog := rfl
@[simp] theorem State.draw_queueLog (s : State) : s.draw.2.queueLog = s.queueLog := rfl
@[simp] theorem State.draw_markers (s : State) : s.draw.2.markers = s.markers := rfl
@[simp] theorem State.draw_replayUntil (s : State) : s.draw.2.replayUntil = s.replayUntil := rfl
@[simp] theorem State.draw_faultBuf (s : State) : s.draw.2.faultBuf = s.faultBuf := rfl
@[simp] theorem State.draw_recSeq (s : State) : s.draw.2.recSeq = s.recSeq := rfl
@[simp] theorem State.draw_overflow (s : State) : s.draw.2.overflow = s.overflow := rfl
@[simp] theorem State.draw_infoDropped (s : State) : s.draw.2.infoDropped = s.infoDropped := rfl
@[simp] theorem State.draw_overflowTold (s : State) : s.draw.2.overflowTold = s.overflowTold := rfl
@[simp] theorem State.draw_launches (s : State) : s.draw.2.launches = s.launches := rfl
@[simp] theorem State.draw_task (s : State) : s.draw.2.task = s.task := rfl
@[simp] theorem State.draw_retiring (s : State) : s.draw.2.retiring = s.retiring := rfl
@[simp] theorem State.draw_contextLaunch (s : State) : s.draw.2.contextLaunch = s.contextLaunch := rfl
@[simp] theorem State.draw_pool (s : State) : s.draw.2.pool = s.pool := rfl
@[simp] theorem State.draw_spillQ (s : State) : s.draw.2.spillQ = s.spillQ := rfl
@[simp] theorem State.draw_journal (s : State) : s.draw.2.journal = s.journal := rfl
@[simp] theorem State.draw_jseq (s : State) : s.draw.2.jseq = s.jseq := rfl
@[simp] theorem State.draw_crowns (s : State) : s.draw.2.crowns = s.crowns := rfl
@[simp] theorem State.draw_crownDown (s : State) : s.draw.2.crownDown = s.crownDown := rfl
@[simp] theorem State.draw_takeoverAt (s : State) : s.draw.2.takeoverAt = s.takeoverAt := rfl
@[simp] theorem State.draw_heldRetirements (s : State) : s.draw.2.heldRetirements = s.heldRetirements := rfl
@[simp] theorem State.draw_dispatchAt (s : State) : s.draw.2.dispatchAt = s.dispatchAt := rfl
@[simp] theorem State.draw_loadAt (s : State) : s.draw.2.loadAt = s.loadAt := rfl
@[simp] theorem State.draw_saved (s : State) : s.draw.2.saved = s.saved := rfl
@[simp] theorem State.draw_snaps (s : State) : s.draw.2.snaps = s.snaps := rfl
@[simp] theorem State.draw_tenants (s : State) : s.draw.2.tenants = s.tenants := rfl
@[simp] theorem State.draw_hmaj (s : State) : s.draw.2.hmaj = s.hmaj := rfl
@[simp] theorem State.draw_hmin (s : State) : s.draw.2.hmin = s.hmin := rfl
@[simp] theorem State.draw_hacc (s : State) : s.draw.2.hacc = s.hacc := rfl
@[simp] theorem State.draw_stations (s : State) : s.draw.2.stations = s.stations := rfl
@[simp] theorem State.draw_members (s : State) : s.draw.2.members = s.members := rfl
@[simp] theorem State.draw_podAcks (s : State) : s.draw.2.podAcks = s.podAcks := rfl
@[simp] theorem State.draw_heldPackets (s : State) : s.draw.2.heldPackets = s.heldPackets := rfl
@[simp] theorem State.draw_mgmtLog (s : State) : s.draw.2.mgmtLog = s.mgmtLog := rfl
@[simp] theorem State.draw_mgmtReports (s : State) : s.draw.2.mgmtReports = s.mgmtReports := rfl
@[simp] theorem State.draw_debugger (s : State) : s.draw.2.debugger = s.debugger := rfl
@[simp] theorem State.draw_agenda (s : State) : s.draw.2.agenda = s.agenda := rfl
@[simp] theorem State.draw_free (s : State) : s.draw.2.free = s.free + 1 := rfl

/-! What a change outside the core keeps for a replay -/

/-- A change of what stands outside the core leaves, beside itself, only what is kept of the past (R371). -/
theorem State.noting_eq (s : State) (own : Bool) (f : State → State) (s1 : State) :
    ∃ p, s.noting own f s1 = { s1 with past := p } := by
  unfold State.noting; repeat' split
  all_goals exact ⟨_, rfl⟩

@[simp] theorem State.noting_core (s : State) (own : Bool) (f : State → State) (s1 : State) : (s.noting own f s1).core = s1.core := by
  obtain ⟨p, h⟩ := s.noting_eq own f s1; rw [h]
@[simp] theorem State.noting_trunk (s : State) (own : Bool) (f : State → State) (s1 : State) : (s.noting own f s1).trunk = s1.trunk := by
  obtain ⟨p, h⟩ := s.noting_eq own f s1; rw [h]
@[simp] theorem State.noting_boot (s : State) (own : Bool) (f : State → State) (s1 : State) : (s.noting own f s1).boot = s1.boot := by
  obtain ⟨p, h⟩ := s.noting_eq own f s1; rw [h]
@[simp] theorem State.noting_bubble (s : State) (own : Bool) (f : State → State) (s1 : State) : (s.noting own f s1).bubble = s1.bubble := by
  obtain ⟨p, h⟩ := s.noting_eq own f s1; rw [h]
@[simp] theorem State.noting_drawerL (s : State) (own : Bool) (f : State → State) (s1 : State) : (s.noting own f s1).drawerL = s1.drawerL := by
  obtain ⟨p, h⟩ := s.noting_eq own f s1; rw [h]
@[simp] theorem State.noting_slots (s : State) (own : Bool) (f : State → State) (s1 : State) : (s.noting own f s1).slots = s1.slots := by
  obtain ⟨p, h⟩ := s.noting_eq own f s1; rw [h]
@[simp] theorem State.noting_retrainLimit (s : State) (own : Bool) (f : State → State) (s1 : State) : (s.noting own f s1).retrainLimit = s1.retrainLimit := by
  obtain ⟨p, h⟩ := s.noting_eq own f s1; rw [h]
@[simp] theorem State.noting_origin (s : State) (own : Bool) (f : State → State) (s1 : State) : (s.noting own f s1).origin = s1.origin := by
  obtain ⟨p, h⟩ := s.noting_eq own f s1; rw [h]
@[simp] theorem State.noting_rollbackArea (s : State) (own : Bool) (f : State → State) (s1 : State) : (s.noting own f s1).rollbackArea = s1.rollbackArea := by
  obtain ⟨p, h⟩ := s.noting_eq own f s1; rw [h]
@[simp] theorem State.noting_spillQueueSize (s : State) (own : Bool) (f : State → State) (s1 : State) : (s.noting own f s1).spillQueueSize = s1.spillQueueSize := by
  obtain ⟨p, h⟩ := s.noting_eq own f s1; rw [h]
@[simp] theorem State.noting_areas (s : State) (own : Bool) (f : State → State) (s1 : State) : (s.noting own f s1).areas = s1.areas := by
  obtain ⟨p, h⟩ := s.noting_eq own f s1; rw [h]
@[simp] theorem State.noting_monotonic (s : State) (own : Bool) (f : State → State) (s1 : State) : (s.noting own f s1).monotonic = s1.monotonic := by
  obtain ⟨p, h⟩ := s.noting_eq own f s1; rw [h]
@[simp] theorem State.noting_measurements (s : State) (own : Bool) (f : State → State) (s1 : State) : (s.noting own f s1).measurements = s1.measurements := by
  obtain ⟨p, h⟩ := s.noting_eq own f s1; rw [h]
@[simp] theorem State.noting_records (s : State) (own : Bool) (f : State → State) (s1 : State) : (s.noting own f s1).records = s1.records := by
  obtain ⟨p, h⟩ := s.noting_eq own f s1; rw [h]
@[simp] theorem State.noting_attestKey (s : State) (own : Bool) (f : State → State) (s1 : State) : (s.noting own f s1).attestKey = s1.attestKey := by
  obtain ⟨p, h⟩ := s.noting_eq own f s1; rw [h]
@[simp] theorem State.noting_identity (s : State) (own : Bool) (f : State → State) (s1 : State) : (s.noting own f s1).identity = s1.identity := by
  obtain ⟨p, h⟩ := s.noting_eq own f s1; rw [h]
@[simp] theorem State.noting_identityCert (s : State) (own : Bool) (f : State → State) (s1 : State) : (s.noting own f s1).identityCert = s1.identityCert := by
  obtain ⟨p, h⟩ := s.noting_eq own f s1; rw [h]
@[simp] theorem State.noting_planes (s : State) (own : Bool) (f : State → State) (s1 : State) : (s.noting own f s1).planes = s1.planes := by
  obtain ⟨p, h⟩ := s.noting_eq own f s1; rw [h]
@[simp] theorem State.noting_planeOf (s : State) (own : Bool) (f : State → State) (s1 : State) : (s.noting own f s1).planeOf = s1.planeOf := by
  obtain ⟨p, h⟩ := s.noting_eq own f s1; rw [h]
@[simp] theorem State.noting_gmem (s : State) (own : Bool) (f : State → State) (s1 : State) : (s.noting own f s1).gmem = s1.gmem := by
  obtain ⟨p, h⟩ := s.noting_eq own f s1; rw [h]
@[simp] theorem State.noting_gpoison (s : State) (own : Bool) (f : State → State) (s1 : State) : (s.noting own f s1).gpoison = s1.gpoison := by
  obtain ⟨p, h⟩ := s.noting_eq own f s1; rw [h]
@[simp] theorem State.noting_pages (s : State) (own : Bool) (f : State → State) (s1 : State) : (s.noting own f s1).pages = s1.pages := by
  obtain ⟨p, h⟩ := s.noting_eq own f s1; rw [h]
@[simp] theorem State.noting_tensors (s : State) (own : Bool) (f : State → State) (s1 : State) : (s.noting own f s1).tensors = s1.tensors := by
  obtain ⟨p, h⟩ := s.noting_eq own f s1; rw [h]
@[simp] theorem State.noting_cache (s : State) (own : Bool) (f : State → State) (s1 : State) : (s.noting own f s1).cache = s1.cache := by
  obtain ⟨p, h⟩ := s.noting_eq own f s1; rw [h]
@[simp] theorem State.noting_dead (s : State) (own : Bool) (f : State → State) (s1 : State) : (s.noting own f s1).dead = s1.dead := by
  obtain ⟨p, h⟩ := s.noting_eq own f s1; rw [h]
@[simp] theorem State.noting_pfops (s : State) (own : Bool) (f : State → State) (s1 : State) : (s.noting own f s1).pfops = s1.pfops := by
  obtain ⟨p, h⟩ := s.noting_eq own f s1; rw [h]
@[simp] theorem State.noting_groupsDown (s : State) (own : Bool) (f : State → State) (s1 : State) : (s.noting own f s1).groupsDown = s1.groupsDown := by
  obtain ⟨p, h⟩ := s.noting_eq own f s1; rw [h]
@[simp] theorem State.noting_retraining (s : State) (own : Bool) (f : State → State) (s1 : State) : (s.noting own f s1).retraining = s1.retraining := by
  obtain ⟨p, h⟩ := s.noting_eq own f s1; rw [h]
@[simp] theorem State.noting_slotWrites (s : State) (own : Bool) (f : State → State) (s1 : State) : (s.noting own f s1).slotWrites = s1.slotWrites := by
  obtain ⟨p, h⟩ := s.noting_eq own f s1; rw [h]
@[simp] theorem State.noting_shards (s : State) (own : Bool) (f : State → State) (s1 : State) : (s.noting own f s1).shards = s1.shards := by
  obtain ⟨p, h⟩ := s.noting_eq own f s1; rw [h]
@[simp] theorem State.noting_checkpoints (s : State) (own : Bool) (f : State → State) (s1 : State) : (s.noting own f s1).checkpoints = s1.checkpoints := by
  obtain ⟨p, h⟩ := s.noting_eq own f s1; rw [h]
@[simp] theorem State.noting_manifests (s : State) (own : Bool) (f : State → State) (s1 : State) : (s.noting own f s1).manifests = s1.manifests := by
  obtain ⟨p, h⟩ := s.noting_eq own f s1; rw [h]
@[simp] theorem State.noting_relHist (s : State) (own : Bool) (f : State → State) (s1 : State) : (s.noting own f s1).relHist = s1.relHist := by
  obtain ⟨p, h⟩ := s.noting_eq own f s1; rw [h]
@[simp] theorem State.noting_flags (s : State) (own : Bool) (f : State → State) (s1 : State) : (s.noting own f s1).flags = s1.flags := by
  obtain ⟨p, h⟩ := s.noting_eq own f s1; rw [h]
@[simp] theorem State.noting_flagHist (s : State) (own : Bool) (f : State → State) (s1 : State) : (s.noting own f s1).flagHist = s1.flagHist := by
  obtain ⟨p, h⟩ := s.noting_eq own f s1; rw [h]
@[simp] theorem State.noting_log (s : State) (own : Bool) (f : State → State) (s1 : State) : (s.noting own f s1).log = s1.log := by
  obtain ⟨p, h⟩ := s.noting_eq own f s1; rw [h]
@[simp] theorem State.noting_opLog (s : State) (own : Bool) (f : State → State) (s1 : State) : (s.noting own f s1).opLog = s1.opLog := by
  obtain ⟨p, h⟩ := s.noting_eq own f s1; rw [h]
@[simp] theorem State.noting_sliceLog (s : State) (own : Bool) (f : State → State) (s1 : State) : (s.noting own f s1).sliceLog = s1.sliceLog := by
  obtain ⟨p, h⟩ := s.noting_eq own f s1; rw [h]
@[simp] theorem State.noting_madeLog (s : State) (own : Bool) (f : State → State) (s1 : State) : (s.noting own f s1).madeLog = s1.madeLog := by
  obtain ⟨p, h⟩ := s.noting_eq own f s1; rw [h]
@[simp] theorem State.noting_freedLog (s : State) (own : Bool) (f : State → State) (s1 : State) : (s.noting own f s1).freedLog = s1.freedLog := by
  obtain ⟨p, h⟩ := s.noting_eq own f s1; rw [h]
@[simp] theorem State.noting_readLog (s : State) (own : Bool) (f : State → State) (s1 : State) : (s.noting own f s1).readLog = s1.readLog := by
  obtain ⟨p, h⟩ := s.noting_eq own f s1; rw [h]
@[simp] theorem State.noting_waitLog (s : State) (own : Bool) (f : State → State) (s1 : State) : (s.noting own f s1).waitLog = s1.waitLog := by
  obtain ⟨p, h⟩ := s.noting_eq own f s1; rw [h]
@[simp] theorem State.noting_revLog (s : State) (own : Bool) (f : State → State) (s1 : State) : (s.noting own f s1).revLog = s1.revLog := by
  obtain ⟨p, h⟩ := s.noting_eq own f s1; rw [h]
@[simp] theorem State.noting_stallLog (s : State) (own : Bool) (f : State → State) (s1 : State) : (s.noting own f s1).stallLog = s1.stallLog := by
  obtain ⟨p, h⟩ := s.noting_eq own f s1; rw [h]
@[simp] theorem State.noting_queueLog (s : State) (own : Bool) (f : State → State) (s1 : State) : (s.noting own f s1).queueLog = s1.queueLog := by
  obtain ⟨p, h⟩ := s.noting_eq own f s1; rw [h]
@[simp] theorem State.noting_markers (s : State) (own : Bool) (f : State → State) (s1 : State) : (s.noting own f s1).markers = s1.markers := by
  obtain ⟨p, h⟩ := s.noting_eq own f s1; rw [h]
@[simp] theorem State.noting_replayUntil (s : State) (own : Bool) (f : State → State) (s1 : State) : (s.noting own f s1).replayUntil = s1.replayUntil := by
  obtain ⟨p, h⟩ := s.noting_eq own f s1; rw [h]
@[simp] theorem State.noting_faultBuf (s : State) (own : Bool) (f : State → State) (s1 : State) : (s.noting own f s1).faultBuf = s1.faultBuf := by
  obtain ⟨p, h⟩ := s.noting_eq own f s1; rw [h]
@[simp] theorem State.noting_recSeq (s : State) (own : Bool) (f : State → State) (s1 : State) : (s.noting own f s1).recSeq = s1.recSeq := by
  obtain ⟨p, h⟩ := s.noting_eq own f s1; rw [h]
@[simp] theorem State.noting_overflow (s : State) (own : Bool) (f : State → State) (s1 : State) : (s.noting own f s1).overflow = s1.overflow := by
  obtain ⟨p, h⟩ := s.noting_eq own f s1; rw [h]
@[simp] theorem State.noting_infoDropped (s : State) (own : Bool) (f : State → State) (s1 : State) : (s.noting own f s1).infoDropped = s1.infoDropped := by
  obtain ⟨p, h⟩ := s.noting_eq own f s1; rw [h]
@[simp] theorem State.noting_overflowTold (s : State) (own : Bool) (f : State → State) (s1 : State) : (s.noting own f s1).overflowTold = s1.overflowTold := by
  obtain ⟨p, h⟩ := s.noting_eq own f s1; rw [h]
@[simp] theorem State.noting_launches (s : State) (own : Bool) (f : State → State) (s1 : State) : (s.noting own f s1).launches = s1.launches := by
  obtain ⟨p, h⟩ := s.noting_eq own f s1; rw [h]
@[simp] theorem State.noting_task (s : State) (own : Bool) (f : State → State) (s1 : State) : (s.noting own f s1).task = s1.task := by
  obtain ⟨p, h⟩ := s.noting_eq own f s1; rw [h]
@[simp] theorem State.noting_retiring (s : State) (own : Bool) (f : State → State) (s1 : State) : (s.noting own f s1).retiring = s1.retiring := by
  obtain ⟨p, h⟩ := s.noting_eq own f s1; rw [h]
@[simp] theorem State.noting_contextLaunch (s : State) (own : Bool) (f : State → State) (s1 : State) : (s.noting own f s1).contextLaunch = s1.contextLaunch := by
  obtain ⟨p, h⟩ := s.noting_eq own f s1; rw [h]
@[simp] theorem State.noting_pool (s : State) (own : Bool) (f : State → State) (s1 : State) : (s.noting own f s1).pool = s1.pool := by
  obtain ⟨p, h⟩ := s.noting_eq own f s1; rw [h]
@[simp] theorem State.noting_spillQ (s : State) (own : Bool) (f : State → State) (s1 : State) : (s.noting own f s1).spillQ = s1.spillQ := by
  obtain ⟨p, h⟩ := s.noting_eq own f s1; rw [h]
@[simp] theorem State.noting_journal (s : State) (own : Bool) (f : State → State) (s1 : State) : (s.noting own f s1).journal = s1.journal := by
  obtain ⟨p, h⟩ := s.noting_eq own f s1; rw [h]
@[simp] theorem State.noting_jseq (s : State) (own : Bool) (f : State → State) (s1 : State) : (s.noting own f s1).jseq = s1.jseq := by
  obtain ⟨p, h⟩ := s.noting_eq own f s1; rw [h]
@[simp] theorem State.noting_crowns (s : State) (own : Bool) (f : State → State) (s1 : State) : (s.noting own f s1).crowns = s1.crowns := by
  obtain ⟨p, h⟩ := s.noting_eq own f s1; rw [h]
@[simp] theorem State.noting_crownDown (s : State) (own : Bool) (f : State → State) (s1 : State) : (s.noting own f s1).crownDown = s1.crownDown := by
  obtain ⟨p, h⟩ := s.noting_eq own f s1; rw [h]
@[simp] theorem State.noting_takeoverAt (s : State) (own : Bool) (f : State → State) (s1 : State) : (s.noting own f s1).takeoverAt = s1.takeoverAt := by
  obtain ⟨p, h⟩ := s.noting_eq own f s1; rw [h]
@[simp] theorem State.noting_heldRetirements (s : State) (own : Bool) (f : State → State) (s1 : State) : (s.noting own f s1).heldRetirements = s1.heldRetirements := by
  obtain ⟨p, h⟩ := s.noting_eq own f s1; rw [h]
@[simp] theorem State.noting_dispatchAt (s : State) (own : Bool) (f : State → State) (s1 : State) : (s.noting own f s1).dispatchAt = s1.dispatchAt := by
  obtain ⟨p, h⟩ := s.noting_eq own f s1; rw [h]
@[simp] theorem State.noting_loadAt (s : State) (own : Bool) (f : State → State) (s1 : State) : (s.noting own f s1).loadAt = s1.loadAt := by
  obtain ⟨p, h⟩ := s.noting_eq own f s1; rw [h]
@[simp] theorem State.noting_saved (s : State) (own : Bool) (f : State → State) (s1 : State) : (s.noting own f s1).saved = s1.saved := by
  obtain ⟨p, h⟩ := s.noting_eq own f s1; rw [h]
@[simp] theorem State.noting_snaps (s : State) (own : Bool) (f : State → State) (s1 : State) : (s.noting own f s1).snaps = s1.snaps := by
  obtain ⟨p, h⟩ := s.noting_eq own f s1; rw [h]
@[simp] theorem State.noting_tenants (s : State) (own : Bool) (f : State → State) (s1 : State) : (s.noting own f s1).tenants = s1.tenants := by
  obtain ⟨p, h⟩ := s.noting_eq own f s1; rw [h]
@[simp] theorem State.noting_hmaj (s : State) (own : Bool) (f : State → State) (s1 : State) : (s.noting own f s1).hmaj = s1.hmaj := by
  obtain ⟨p, h⟩ := s.noting_eq own f s1; rw [h]
@[simp] theorem State.noting_hmin (s : State) (own : Bool) (f : State → State) (s1 : State) : (s.noting own f s1).hmin = s1.hmin := by
  obtain ⟨p, h⟩ := s.noting_eq own f s1; rw [h]
@[simp] theorem State.noting_hacc (s : State) (own : Bool) (f : State → State) (s1 : State) : (s.noting own f s1).hacc = s1.hacc := by
  obtain ⟨p, h⟩ := s.noting_eq own f s1; rw [h]
@[simp] theorem State.noting_stations (s : State) (own : Bool) (f : State → State) (s1 : State) : (s.noting own f s1).stations = s1.stations := by
  obtain ⟨p, h⟩ := s.noting_eq own f s1; rw [h]
@[simp] theorem State.noting_members (s : State) (own : Bool) (f : State → State) (s1 : State) : (s.noting own f s1).members = s1.members := by
  obtain ⟨p, h⟩ := s.noting_eq own f s1; rw [h]
@[simp] theorem State.noting_podAcks (s : State) (own : Bool) (f : State → State) (s1 : State) : (s.noting own f s1).podAcks = s1.podAcks := by
  obtain ⟨p, h⟩ := s.noting_eq own f s1; rw [h]
@[simp] theorem State.noting_heldPackets (s : State) (own : Bool) (f : State → State) (s1 : State) : (s.noting own f s1).heldPackets = s1.heldPackets := by
  obtain ⟨p, h⟩ := s.noting_eq own f s1; rw [h]
@[simp] theorem State.noting_mgmtLog (s : State) (own : Bool) (f : State → State) (s1 : State) : (s.noting own f s1).mgmtLog = s1.mgmtLog := by
  obtain ⟨p, h⟩ := s.noting_eq own f s1; rw [h]
@[simp] theorem State.noting_mgmtReports (s : State) (own : Bool) (f : State → State) (s1 : State) : (s.noting own f s1).mgmtReports = s1.mgmtReports := by
  obtain ⟨p, h⟩ := s.noting_eq own f s1; rw [h]
@[simp] theorem State.noting_debugger (s : State) (own : Bool) (f : State → State) (s1 : State) : (s.noting own f s1).debugger = s1.debugger := by
  obtain ⟨p, h⟩ := s.noting_eq own f s1; rw [h]
@[simp] theorem State.noting_agenda (s : State) (own : Bool) (f : State → State) (s1 : State) : (s.noting own f s1).agenda = s1.agenda := by
  obtain ⟨p, h⟩ := s.noting_eq own f s1; rw [h]
@[simp] theorem State.noting_free (s : State) (own : Bool) (f : State → State) (s1 : State) : (s.noting own f s1).free = s1.free := by
  obtain ⟨p, h⟩ := s.noting_eq own f s1; rw [h]

/-- While no rollback is possible nothing is kept. -/
theorem State.noting_idle {s : State} (h : s.snaps = []) (own : Bool) (f : State → State) (s1 : State) : s.noting own f s1 = s1 := by
  simp [State.noting, h]

/-- Outside a replay the core sees what there is. -/
@[simp] theorem State.asOf_live {s : State} (h : s.replaying = false) : s.asOf = s := by simp [State.asOf, h]

/-- What the core sees on a replay is of its own core and time. -/
@[simp] theorem State.asOf_core (s : State) : s.asOf.core = s.core := by
  unfold State.asOf; repeat' split
  all_goals rfl

@[simp] theorem State.asOf_trunk (s : State) : s.asOf.trunk = s.trunk := by
  unfold State.asOf; repeat' split
  all_goals rfl

/-! What comes later with the place of its own word, and what a replay keeps -/

/-- An act put on the timeline in the place of another word (R147). -/
theorem State.inPlace_sched (s : State) (seq t : Nat) (a : Act) :
    s.inPlace seq (fun s => { s with core := s.core.sched t a }) =
      { s with core := { s.core with timeline := ⟨t, seq, a⟩ :: s.core.timeline } } := rfl

/-- Noting a fault counts it and sets stalls and deferred faults aside; nothing else changes (R348). -/
theorem State.noteFault_eq (s : State) (f : FaultInfo) :
    ∃ q w a, s.noteFault f = { s with core := { s.core with faultQ := q, waitQ := w, faultAt := a } } := by
  unfold State.noteFault; dsimp only; split
  · exact ⟨s.core.faultQ, s.core.waitQ, s.core.faultAt, rfl⟩
  · exact ⟨_, _, _, rfl⟩

/-- A stall is queued and kept, or it is kept already and nothing happens (R370). -/
theorem State.takeStall_cases (s : State) (key : Nat × Nat) (f : FaultInfo) :
    s.takeStall key f = s ∨ s.takeStall key f = { s with stallLog := s.stallLog ++ [⟨s.ctime, s.trunk, key, f⟩]
                                                         core := { s.core with faultQ := s.core.faultQ ++ [f] } } := by
  unfold State.takeStall; split
  · exact .inl rfl
  · exact .inr rfl

/-- With no stall kept, a stall is queued. -/
theorem State.takeStall_first {s : State} (h : s.stallLog = []) (key : Nat × Nat) (f : FaultInfo) :
    (s.takeStall key f).core.faultQ = s.core.faultQ ++ [f] := by simp [State.takeStall, h]

/-- Outside a replay no stall comes again. -/
theorem State.stallsAgain_none {s : State} (h : s.replaying = false) : s.stallsAgain = s := by simp [State.stallsAgain, h]

end Sys2Proof.Machine
end

