-- ==== Sys2Proof/Laws/Acts.lean ====
section
/-! SUPPORT. What each act of the timeline does on its cycle, one lemma per act, so that no proof unfolds the whole match. -/

namespace Sys2Proof.Machine

/-! ## On the core -/

@[simp] theorem Core.performAct_wg (c : Core) (t due q : Nat) (k : Cluster) (n : BitVec 5) (v : Word) :
    c.performAct t ⟨due, q, .wg k n v⟩ = c.onCl k fun x => x.writeG n v := rfl
@[simp] theorem Core.performAct_wgFlag (c : Core) (t due q : Nat) (k : Cluster) (n : BitVec 5) (v : Word) :
    c.performAct t ⟨due, q, .wgFlag k n v⟩ = c.onCl k fun x => x.writeG n v := rfl
@[simp] theorem Core.performAct_wa (c : Core) (t due q : Nat) (k : Cluster) (n : BitVec 4) (v : BitVec 32) :
    c.performAct t ⟨due, q, .wa k n v⟩ = c.onCl k fun x => x.writeA n v := rfl
@[simp] theorem Core.performAct_wp (c : Core) (t due q : Nat) (k : Cluster) (n : BitVec 5) (v : Bool) :
    c.performAct t ⟨due, q, .wp k n v⟩ = c.onCl k fun x => x.writeP n v := rfl
@[simp] theorem Core.performAct_wy (c : Core) (t due q : Nat) (n : BitVec 4) (v : Word) :
    c.performAct t ⟨due, q, .wy n v⟩ = c.writeY n v := rfl
@[simp] theorem Core.performAct_wk (c : Core) (t due q : Nat) (n : BitVec 3) (v : Word) :
    c.performAct t ⟨due, q, .wk n v⟩ = c.writeK n v := rfl
@[simp] theorem Core.performAct_wcb (c : Core) (t due q : Nat) (n : BitVec 2) (v : Word) :
    c.performAct t ⟨due, q, .wcb n v⟩ = c.writeCb n v := rfl
@[simp] theorem Core.performAct_wh (c : Core) (t due q : Nat) (n : BitVec 5) (h : Handle) :
    c.performAct t ⟨due, q, .wh n h⟩ = (c.writeH n h).overInstall n := rfl
@[simp] theorem Core.performAct_wsys (c : Core) (t due q : Nat) (r : SysReg) (v : Word) :
    c.performAct t ⟨due, q, .wsys r v⟩ = c.writeSys r v := rfl
@[simp] theorem Core.performAct_wtok (c : Core) (t due q : Nat) (n : BitVec 4) (k : Token) :
    c.performAct t ⟨due, q, .wtok n k⟩ = c.writeQ n k := rfl
@[simp] theorem Core.performAct_xlate (c : Core) (t due q : Nat) (n' : BitVec 5) (va' : Word) (at_' : Place) :
    c.performAct t ⟨due, q, .xlate n' va' at_'⟩ = c := rfl
@[simp] theorem Core.performAct_wr (c : Core) (t due q : Nat) (m : Mem) (ps : List (Nat × Nat)) (bs : List Byte) :
    c.performAct t ⟨due, q, .wr m ps bs⟩ = c.writePieces m (takePieces ps bs) := rfl
@[simp] theorem Core.performAct_move (c : Core) (t due q : Nat) (src : Mem) (sp : List (Nat × Nat)) (dst : Mem) (dp : List (Nat × Nat)) (bit : Nat) :
    c.performAct t ⟨due, q, .move src sp dst dp bit⟩ =
      let r := c.readPieces src bit sp
      { r.2 with timeline := ⟨t + 1, q, (.wr dst dp (padTo dp r.1))⟩ :: r.2.timeline } := rfl
@[simp] theorem Core.performAct_load (c : Core) (t due q : Nat) (g : BitVec 5) (addr : Nat) (sz : Nat) (sx : Bool) :
    c.performAct t ⟨due, q, .load g addr sz sx⟩ =
      let r := c.readMem .ls cirPSC addr (2 ^ sz)
      { r.2 with timeline := ⟨t + 2, q, (.wg .S g (loadedWord r.1 sz sx))⟩ :: r.2.timeline } := rfl
@[simp] theorem Core.performAct_vec (c : Core) (t due q : Nat) (j : VJob) (i : Nat) (p : Nat) :
    c.performAct t ⟨due, q, .vec j i p⟩ = c.vecAct j i p t q := rfl
@[simp] theorem Core.performAct_vout (c : Core) (t due q : Nat) (j : VJob) :
    c.performAct t ⟨due, q, .vout j⟩ = c.voutAct j t q := rfl
@[simp] theorem Core.performAct_prow (c : Core) (t due q : Nat) (p : Prod) (isB : Bool) (i : Nat) :
    c.performAct t ⟨due, q, .prow p isB i⟩ = c.prowAct p isB i t := rfl
@[simp] theorem Core.performAct_pcomp (c : Core) (t due q : Nat) (p : Prod) :
    c.performAct t ⟨due, q, .pcomp p⟩ = c.pcompAct p t q := rfl
@[simp] theorem Core.performAct_pdone (c : Core) (t due q : Nat) (p : Prod) (rows : List (Nat × List Byte)) (r : Retry) :
    c.performAct t ⟨due, q, .pdone p rows r⟩ = c.pdoneAct p rows r := rfl
@[simp] theorem Core.performAct_restore (c : Core) (t due q : Nat) (r : Retry) (pre : List (List Byte)) :
    c.performAct t ⟨due, q, .restore r pre⟩ = c.restoreAct r pre := rfl
@[simp] theorem Core.performAct_rcomp (c : Core) (t due q : Nat) (r : Retry) :
    c.performAct t ⟨due, q, .rcomp r⟩ = c.rcompAct r t q := rfl
@[simp] theorem Core.performAct_rdone (c : Core) (t due q : Nat) (r : Retry) (rows : List (Nat × List Byte)) :
    c.performAct t ⟨due, q, .rdone r rows⟩ = c.rdoneAct r rows := rfl
@[simp] theorem Core.performAct_reseed (c : Core) (t due q : Nat) (mr : Bool) (d : Nat) :
    c.performAct t ⟨due, q, .reseed mr d⟩ = c.reseed mr d := rfl
@[simp] theorem Core.performAct_fix (c : Core) (t due q : Nat) (mr : Bool) (d : Nat) (row : Nat) (col : Nat) (addr : Nat) (bs : List Byte) (two : Bool) (pl : Place) :
    c.performAct t ⟨due, q, .fix mr d row col addr bs two pl⟩ = c.fixAct mr d row col addr bs two pl := rfl
@[simp] theorem Core.performAct_alloc (c : Core) (t due q : Nat) (first : Nat) (count : Nat) (on : Bool) (zero : Bool) :
    c.performAct t ⟨due, q, .alloc first count on zero⟩ = c.allocBanks first count on zero := rfl
@[simp] theorem Core.performAct_owners (c : Core) (t due q : Nat) (b : Nat) (o : BitVec 8) :
    c.performAct t ⟨due, q, .owners b o⟩ = { c with owner := c.owner.setIfInBounds b o } := rfl
@[simp] theorem Core.performAct_ftab (c : Core) (t due q : Nat) (n : BitVec 4) (v : Word) :
    c.performAct t ⟨due, q, .ftab n v⟩ = { c with ftab := c.ftab.set n.toNat v (by omega) } := rfl
@[simp] theorem Core.performAct_cbend (c : Core) (t due q : Nat) (b : Nat) (count : Nat) (eb : Nat) (src : CbSource) :
    c.performAct t ⟨due, q, .cbend b count eb src⟩ = { c with banks := c.banks.setIfInBounds b ⟨count, eb, false, src⟩ } := rfl
@[simp] theorem Core.performAct_cbsrc (c : Core) (t due q : Nat) (b : Nat) (src : CbSource) :
    c.performAct t ⟨due, q, .cbsrc b src⟩ = { c with banks := c.banks.setIfInBounds b { c.banks.getD b default with source := src } } := rfl
@[simp] theorem Core.performAct_cbcmp (c : Core) (t due q : Nat) (id : Nat) (b : Nat) (x : Nat) (eb : Nat) (addr : Nat) :
    c.performAct t ⟨due, q, .cbcmp id b x eb addr⟩ =
      let r := c.readMem .cb cirPC (b * 32768 + 128 * x) eb
      let m := r.2.readMem .ls cirPM addr eb
      if r.1 = m.1 then m.2 else m.2.setBuf id x [1] := rfl
@[simp] theorem Core.performAct_cbans (c : Core) (t due q : Nat) (id : Nat) (p : BitVec 5) :
    c.performAct t ⟨due, q, .cbans id p⟩ = { c with timeline := ⟨t + 1, q, (.wp .M p (!c.bufs.any fun b => b.1 = id))⟩ :: c.timeline } := rfl
@[simp] theorem Core.performAct_tols (c : Core) (t due q : Nat) (addr : Nat) :
    c.performAct t ⟨due, q, .tols addr⟩ = c.tolsAct addr t q := rfl
@[simp] theorem Core.performAct_patchRead (c : Core) (t due q : Nat) (id' : Nat) (c' : Nat) :
    c.performAct t ⟨due, q, .patchRead id' c'⟩ = c := rfl
@[simp] theorem Core.performAct_kickRead (c : Core) (t due q : Nat) (id' : Nat) (n' : Nat) :
    c.performAct t ⟨due, q, .kickRead id' n'⟩ = c := rfl
@[simp] theorem Core.performAct_flag (c : Core) (t due q : Nat) (c' : Cluster) (o' : FlagOp) :
    c.performAct t ⟨due, q, .flag c' o'⟩ = c := rfl
@[simp] theorem Core.performAct_chkclr (c : Core) (t due q : Nat) (v : Word) :
    c.performAct t ⟨due, q, .chkclr v⟩ = { c with cir := c.cir &&& ~~~v } := rfl
@[simp] theorem Core.performAct_unpin (c : Core) (t due q : Nat) (key' : Nat × Nat) (h' : Handle) (off' : Nat) (units' : Nat) :
    c.performAct t ⟨due, q, .unpin key' h' off' units'⟩ = c := rfl
@[simp] theorem Core.performAct_region (c : Core) (t due q : Nat) (ix : BitVec 4) (r : Option Region) :
    c.performAct t ⟨due, q, .region ix r⟩ = { c with regions := c.regions.set ix.toNat r (by omega) } := rfl
@[simp] theorem Core.performAct_revoke (c : Core) (t due q : Nat) (tenant' : BitVec 4) (p' : Page) :
    c.performAct t ⟨due, q, .revoke tenant' p'⟩ = c := rfl
@[simp] theorem Core.performAct_shadowFlag (c : Core) (t due q : Nat) (g : BitVec 5) (f : BitVec 8) :
    c.performAct t ⟨due, q, .shadowFlag g f⟩ = c := rfl

/-! ## On the whole part -/

@[simp] theorem State.perform_wg (s : State) (t due q : Nat) (c' : Cluster) (n' : BitVec 5) (v' : Word) :
    s.perform t ⟨due, q, .wg c' n' v'⟩ =
      { s with core := (s.core.performAct t ⟨due, q, .wg c' n' v'⟩).underKick ⟨due, q, .wg c' n' v'⟩ c' n' v' } := rfl
@[simp] theorem State.perform_wgFlag (s : State) (t due q : Nat) (c' : Cluster) (n' : BitVec 5) (v' : Word) :
    s.perform t ⟨due, q, .wgFlag c' n' v'⟩ =
      { s with core := (s.core.performAct t ⟨due, q, .wgFlag c' n' v'⟩).underKick ⟨due, q, .wgFlag c' n' v'⟩ c' n' v' } := rfl
@[simp] theorem State.perform_wa (s : State) (t due q : Nat) (c' : Cluster) (n' : BitVec 4) (v' : BitVec 32) :
    s.perform t ⟨due, q, .wa c' n' v'⟩ = { s with core := s.core.performAct t ⟨due, q, .wa c' n' v'⟩ } := rfl
@[simp] theorem State.perform_wp (s : State) (t due q : Nat) (c' : Cluster) (n' : BitVec 5) (v' : Bool) :
    s.perform t ⟨due, q, .wp c' n' v'⟩ = { s with core := s.core.performAct t ⟨due, q, .wp c' n' v'⟩ } := rfl
@[simp] theorem State.perform_wy (s : State) (t due q : Nat) (n' : BitVec 4) (v' : Word) :
    s.perform t ⟨due, q, .wy n' v'⟩ = { s with core := s.core.performAct t ⟨due, q, .wy n' v'⟩ } := rfl
@[simp] theorem State.perform_wk (s : State) (t due q : Nat) (n' : BitVec 3) (v' : Word) :
    s.perform t ⟨due, q, .wk n' v'⟩ = { s with core := s.core.performAct t ⟨due, q, .wk n' v'⟩ } := rfl
@[simp] theorem State.perform_wcb (s : State) (t due q : Nat) (n' : BitVec 2) (v' : Word) :
    s.perform t ⟨due, q, .wcb n' v'⟩ = { s with core := s.core.performAct t ⟨due, q, .wcb n' v'⟩ } := rfl
@[simp] theorem State.perform_wh (s : State) (t due q : Nat) (n' : BitVec 5) (h' : Handle) :
    s.perform t ⟨due, q, .wh n' h'⟩ = { s with core := s.core.performAct t ⟨due, q, .wh n' h'⟩ } := rfl
@[simp] theorem State.perform_wsys (s : State) (t due q : Nat) (r' : SysReg) (v' : Word) :
    s.perform t ⟨due, q, .wsys r' v'⟩ = { s with core := s.core.performAct t ⟨due, q, .wsys r' v'⟩ } := rfl
@[simp] theorem State.perform_wtok (s : State) (t due q : Nat) (n' : BitVec 4) (t' : Token) :
    s.perform t ⟨due, q, .wtok n' t'⟩ = { s with core := s.core.performAct t ⟨due, q, .wtok n' t'⟩ } := rfl
@[simp] theorem State.perform_wr (s : State) (t due q : Nat) (m' : Mem) (ps' : List (Nat × Nat)) (bs' : List Byte) :
    s.perform t ⟨due, q, .wr m' ps' bs'⟩ = { s with core := s.core.performAct t ⟨due, q, .wr m' ps' bs'⟩ } := rfl
@[simp] theorem State.perform_move (s : State) (t due q : Nat) (src' : Mem) (sp' : List (Nat × Nat)) (dst' : Mem) (dp' : List (Nat × Nat)) (bit' : Nat) :
    s.perform t ⟨due, q, .move src' sp' dst' dp' bit'⟩ = { s with core := s.core.performAct t ⟨due, q, .move src' sp' dst' dp' bit'⟩ } := rfl
@[simp] theorem State.perform_load (s : State) (t due q : Nat) (g' : BitVec 5) (addr' : Nat) (sz' : Nat) (sx' : Bool) :
    s.perform t ⟨due, q, .load g' addr' sz' sx'⟩ = { s with core := s.core.performAct t ⟨due, q, .load g' addr' sz' sx'⟩ } := rfl
@[simp] theorem State.perform_vec (s : State) (t due q : Nat) (j' : VJob) (seg' : Nat) (part' : Nat) :
    s.perform t ⟨due, q, .vec j' seg' part'⟩ = { s with core := s.core.performAct t ⟨due, q, .vec j' seg' part'⟩ } := rfl
@[simp] theorem State.perform_vout (s : State) (t due q : Nat) (j' : VJob) :
    s.perform t ⟨due, q, .vout j'⟩ = { s with core := s.core.performAct t ⟨due, q, .vout j'⟩ } := rfl
@[simp] theorem State.perform_prow (s : State) (t due q : Nat) (p' : Prod) (isB' : Bool) (i' : Nat) :
    s.perform t ⟨due, q, .prow p' isB' i'⟩ = { s with core := s.core.performAct t ⟨due, q, .prow p' isB' i'⟩ } := rfl
@[simp] theorem State.perform_pcomp (s : State) (t due q : Nat) (p' : Prod) :
    s.perform t ⟨due, q, .pcomp p'⟩ = { s with core := s.core.performAct t ⟨due, q, .pcomp p'⟩ } := rfl
@[simp] theorem State.perform_pdone (s : State) (t due q : Nat) (p' : Prod) (rows' : List (Nat × List Byte)) (r' : Retry) :
    s.perform t ⟨due, q, .pdone p' rows' r'⟩ = { s with core := s.core.performAct t ⟨due, q, .pdone p' rows' r'⟩ } := rfl
@[simp] theorem State.perform_restore (s : State) (t due q : Nat) (r' : Retry) (pre' : List (List Byte)) :
    s.perform t ⟨due, q, .restore r' pre'⟩ = { s with core := s.core.performAct t ⟨due, q, .restore r' pre'⟩ } := rfl
@[simp] theorem State.perform_rcomp (s : State) (t due q : Nat) (r' : Retry) :
    s.perform t ⟨due, q, .rcomp r'⟩ = { s with core := s.core.performAct t ⟨due, q, .rcomp r'⟩ } := rfl
@[simp] theorem State.perform_rdone (s : State) (t due q : Nat) (r' : Retry) (rows' : List (Nat × List Byte)) :
    s.perform t ⟨due, q, .rdone r' rows'⟩ = { s with core := s.core.performAct t ⟨due, q, .rdone r' rows'⟩ } := rfl
@[simp] theorem State.perform_reseed (s : State) (t due q : Nat) (mr' : Bool) (dest' : Nat) :
    s.perform t ⟨due, q, .reseed mr' dest'⟩ = { s with core := s.core.performAct t ⟨due, q, .reseed mr' dest'⟩ } := rfl
@[simp] theorem State.perform_fix (s : State) (t due q : Nat) (mr' : Bool) (dest' : Nat) (row' : Nat) (col' : Nat) (addr' : Nat) (bs' : List Byte) (two' : Bool) (at_' : Place) :
    s.perform t ⟨due, q, .fix mr' dest' row' col' addr' bs' two' at_'⟩ = { s with core := s.core.performAct t ⟨due, q, .fix mr' dest' row' col' addr' bs' two' at_'⟩ } := rfl
@[simp] theorem State.perform_alloc (s : State) (t due q : Nat) (first' : Nat) (count' : Nat) (on' : Bool) (zero' : Bool) :
    s.perform t ⟨due, q, .alloc first' count' on' zero'⟩ = { s with core := s.core.performAct t ⟨due, q, .alloc first' count' on' zero'⟩ } := rfl
@[simp] theorem State.perform_owners (s : State) (t due q : Nat) (bank' : Nat) (o' : BitVec 8) :
    s.perform t ⟨due, q, .owners bank' o'⟩ = { s with core := s.core.performAct t ⟨due, q, .owners bank' o'⟩ } := rfl
@[simp] theorem State.perform_ftab (s : State) (t due q : Nat) (n' : BitVec 4) (v' : Word) :
    s.perform t ⟨due, q, .ftab n' v'⟩ = { s with core := s.core.performAct t ⟨due, q, .ftab n' v'⟩ } := rfl
@[simp] theorem State.perform_cbend (s : State) (t due q : Nat) (bank' : Nat) (count' : Nat) (ebytes' : Nat) (src' : CbSource) :
    s.perform t ⟨due, q, .cbend bank' count' ebytes' src'⟩ = { s with core := s.core.performAct t ⟨due, q, .cbend bank' count' ebytes' src'⟩ } := rfl
@[simp] theorem State.perform_cbsrc (s : State) (t due q : Nat) (bank' : Nat) (src' : CbSource) :
    s.perform t ⟨due, q, .cbsrc bank' src'⟩ = { s with core := s.core.performAct t ⟨due, q, .cbsrc bank' src'⟩ } := rfl
@[simp] theorem State.perform_cbcmp (s : State) (t due q : Nat) (id' : Nat) (bank' : Nat) (e' : Nat) (ebytes' : Nat) (addr' : Nat) :
    s.perform t ⟨due, q, .cbcmp id' bank' e' ebytes' addr'⟩ = { s with core := s.core.performAct t ⟨due, q, .cbcmp id' bank' e' ebytes' addr'⟩ } := rfl
@[simp] theorem State.perform_cbans (s : State) (t due q : Nat) (id' : Nat) (p' : BitVec 5) :
    s.perform t ⟨due, q, .cbans id' p'⟩ = { s with core := s.core.performAct t ⟨due, q, .cbans id' p'⟩ } := rfl
@[simp] theorem State.perform_tols (s : State) (t due q : Nat) (addr' : Nat) :
    s.perform t ⟨due, q, .tols addr'⟩ = { s with core := s.core.performAct t ⟨due, q, .tols addr'⟩ } := rfl
@[simp] theorem State.perform_flag (s : State) (t due q : Nat) (c' : Cluster) (o' : FlagOp) :
    s.perform t ⟨due, q, .flag c' o'⟩ = { s with core := s.core.performAct t ⟨due, q, .flag c' o'⟩ } := rfl
@[simp] theorem State.perform_chkclr (s : State) (t due q : Nat) (v' : Word) :
    s.perform t ⟨due, q, .chkclr v'⟩ = { s with core := s.core.performAct t ⟨due, q, .chkclr v'⟩ } := rfl
@[simp] theorem State.perform_region (s : State) (t due q : Nat) (ix' : BitVec 4) (r' : Option Region) :
    s.perform t ⟨due, q, .region ix' r'⟩ = { s with core := s.core.performAct t ⟨due, q, .region ix' r'⟩ } := rfl

/-- A write under no KICK is the act alone. -/
@[simp] theorem Core.underKick_none {c : Core} (e : Entry) (k : Cluster) (n : BitVec 5) (v : Word) (h : c.kick = none) :
    c.underKick e k n v = c := by
  obtain ⟨⟩ := c
  cases h
  rfl

/-- A KICK's own write leaves what its refusal would restore; another word's write to the register that it names replaces it (R343). -/
theorem Core.underKick_kick (c : Core) (e : Entry) (k : Cluster) (n : BitVec 5) (v : Word) :
    (c.underKick e k n v).kick = c.kick.map fun o =>
      if k = .S ∧ n = o.g ∧ (e.seq ≠ o.seq ∨ e.due ≠ o.writes) then { o with oldG := v } else o := by
  unfold Core.underKick
  simp [and_assoc]

/-! ## Patches of a replayed span (R371) -/

/-- A record that no replay replaces is itself. -/
@[simp] theorem substRec_nil (x : PatchRec) : substRec [] x = x := rfl

/-- Replacing a record keeps its folds, its retirement serial and its start floor. -/
theorem substRec_keeps (rs : List (PatchRec × PatchRec)) (x : PatchRec) :
    (substRec rs x).folded = x.folded ∧ (substRec rs x).rs = x.rs ∧ (substRec rs x).sf = x.sf := by
  unfold substRec
  split <;> exact ⟨rfl, rfl, rfl⟩

/-- A replayed recording word with the data of its first acceptance is accepted, and its slice does nothing. -/
theorem State.slice_again {s : State} {o : PatchOp} {r : PatchRec} {addr bytes : Nat} (hk : o.kind = .record r addr bytes)
    (ht : o.h.tier ≠ 3#3) (hd : s.firstTaken o = some r.digest) : s.slice o = .answer s .accepted := by
  simp [State.slice, hk, hd]
  exact fun h => absurd h ht

/-- What a slice keeps of an answer is no state of the core. -/
@[simp] theorem State.keepAnswer_core (s s1 : State) (o : PatchOp) (a : Answer) : (s.keepAnswer s1 o a).core = s1.core := rfl

/-- A replaced record changes nothing of the core. -/
@[simp] theorem State.retake_core (s : State) (d : Word) (r : PatchRec) : (s.retake d r).core = s.core := by
  unfold State.retake
  dsimp only
  repeat' split
  all_goals rfl

/-! ## The rollback area (R372) -/

/-- Old contents saved for a word change only the list of units and the protection of the phase. -/
theorem State.touch_eq {s t : State} {us : List Nat} (h : s.touch us = some t) :
    ∃ ts p, t = { s with core := { s.core with touched := ts, protectedPhase := p } } := by
  unfold State.touch at h
  dsimp only at h
  repeat' split at h
  all_goals first
    | cases h; exact ⟨_, _, rfl⟩
    | exact absurd h nofun

/-- The same of an engine's write, which is never held. -/
theorem State.touchDue_eq (s : State) (us : List Nat) :
    ∃ ts p, s.touchDue us = { s with core := { s.core with touched := ts, protectedPhase := p } } := by
  unfold State.touchDue
  cases h : s.touch us with
  | none => exact ⟨_, _, rfl⟩
  | some t => exact State.touch_eq h

/-- A phase that is not protected needs no room. -/
@[simp] theorem State.touch_unprotected {s : State} (us : List Nat) (h : s.core.protectedPhase = false) : s.touch us = some s := by
  simp [State.touch, h]

end Sys2Proof.Machine
end

