-- ==== Sys2Proof/Laws/Memory.lean ====
section
/-! SUPPORT. Memory keeps its canonical form under every operation, and reads what was written last. -/

namespace Sys2Proof.Machine

namespace Memory

/-! ## The canonical form -/

theorem above_mono {lo lo' : Nat} (h : lo' ≤ lo) : ∀ {m : Memory}, above lo m = true → above lo' m = true
  | [], _ => rfl
  | (k, v) :: m, hm => by
      simp only [above, Bool.and_eq_true, decide_eq_true_eq] at hm ⊢
      exact ⟨by omega, above_mono h hm.2⟩

theorem above_put {lo a : Nat} {b : Byte} (h : lo < a) : ∀ {m : Memory}, above lo m = true → above lo (m.put a b) = true
  | [], _ => by
      unfold put
      split <;> simp [above, h]
  | (k, v) :: m, hm => by
      simp only [above, Bool.and_eq_true, decide_eq_true_eq] at hm
      unfold put
      split
      · split <;> simp [above, h, hm]
      · split
        · split <;> simp [above, h, hm]
        · simp [above, hm.1, above_put h hm.2]

theorem put_wf {a : Nat} {b : Byte} : ∀ {m : Memory}, m.wf = true → (m.put a b).wf = true
  | [], _ => by
      unfold put
      split <;> simp_all [wf, above]
  | (k, v) :: m, hm => by
      have h := hm
      simp only [wf, Bool.and_eq_true] at h
      unfold put
      split
      · next hk =>
        split
        · exact hm
        · next hb =>
          simp only [wf, above, Bool.and_eq_true, decide_eq_true_eq, bne_iff_ne]
          exact ⟨⟨hb, hk, above_mono (Nat.le_of_lt hk) h.1.2⟩, ⟨bne_iff_ne.mp h.1.1, h.1.2⟩, h.2⟩
      · next hk =>
        split
        · next he =>
          subst he
          split
          · exact h.2
          · next hb =>
            simp only [wf, Bool.and_eq_true, bne_iff_ne]
            exact ⟨⟨hb, h.1.2⟩, h.2⟩
        · next hne =>
          have hka : k < a := by omega
          simp only [wf, Bool.and_eq_true]
          exact ⟨⟨h.1.1, above_put hka h.1.2⟩, put_wf h.2⟩

theorem write_wf {bs : List Byte} : ∀ {a : Nat} {m : Memory}, m.wf = true → (m.write a bs).wf = true := by
  induction bs with
  | nil => intro a m h; exact h
  | cons b bs ih => intro a m h; exact ih (put_wf h)

theorem above_filter {p : Host.Cell → Bool} {lo : Nat} : ∀ {m : Memory}, above lo m = true → above lo (m.filter p) = true
  | [], _ => rfl
  | (k, v) :: m, hm => by
      simp only [above, Bool.and_eq_true, decide_eq_true_eq] at hm
      simp only [List.filter_cons]
      split
      · simp [above, hm.1, above_filter hm.2]
      · exact above_filter hm.2

theorem filter_wf {p : Host.Cell → Bool} : ∀ {m : Memory}, m.wf = true → Memory.wf (m.filter p) = true
  | [], _ => rfl
  | (k, v) :: m, hm => by
      simp only [wf, Bool.and_eq_true] at hm
      simp only [List.filter_cons]
      split
      · simp only [wf, Bool.and_eq_true]
        exact ⟨⟨hm.1.1, above_filter hm.1.2⟩, filter_wf hm.2⟩
      · exact filter_wf hm.2

@[simp] theorem nil_wf : Memory.wf [] = true := rfl

/-! ## Reading -/

theorem get_above {lo a : Nat} (h : a ≤ lo) : ∀ {m : Memory}, above lo m = true → m.get a = 0
  | [], _ => rfl
  | (k, v) :: m, hm => by
      simp only [above, Bool.and_eq_true, decide_eq_true_eq] at hm
      unfold get
      rw [if_neg (by omega)]
      exact get_above h hm.2

/-- A byte reads as it was last written. -/
theorem get_put_same {a : Nat} {b : Byte} : ∀ {m : Memory}, m.wf = true → (m.put a b).get a = b
  | [], _ => by
      unfold put
      split <;> simp_all [get]
  | (k, v) :: m, hm => by
      have h := hm
      simp only [wf, Bool.and_eq_true] at h
      unfold put
      split
      · next hk =>
        split
        · next hb =>
          subst hb
          unfold get
          rw [if_neg (by omega)]
          exact get_above (Nat.le_of_lt hk) h.1.2
        · simp [get]
      · next hk =>
        split
        · next he =>
          subst he
          split
          · next hb =>
            subst hb
            exact get_above (Nat.le_refl _) h.1.2
          · simp [get]
        · next hne =>
          unfold get
          rw [if_neg hne]
          exact get_put_same h.2

/-- Every other byte stays as it was. -/
theorem get_put_other {a a' : Nat} {b : Byte} (hne : a' ≠ a) : ∀ {m : Memory}, (m.put a b).get a' = m.get a'
  | [] => by
      unfold put
      split
      · rfl
      · simp [get, hne]
  | (k, v) :: m => by
      unfold put
      split
      · split
        · rfl
        · conv => lhs; unfold get
          rw [if_neg hne]
      · split
        · next he =>
          subst he
          split
          · conv => rhs; unfold get
            rw [if_neg hne]
          · simp [get, hne]
        · unfold get
          rw [get_put_other hne]

theorem get_write_outside {bs : List Byte} : ∀ {a x : Nat} {m : Memory}, (x < a ∨ a + bs.length ≤ x) →
    (m.write a bs).get x = m.get x := by
  induction bs with
  | nil => intros; rfl
  | cons b bs ih =>
    intro a x m h
    simp only [List.length_cons] at h
    have step : (Memory.write (m.put a b) (a + 1) bs).get x = (m.put a b).get x := ih (by omega)
    exact step.trans (get_put_other (by omega))

end Memory

/-! ## Writes to a memory of the core -/

/-- Every memory of the core has its canonical form. -/
def Core.memWf (c : Core) : Bool := c.ls.wf && c.acc.wf && c.mr.wf && c.scale.wf && c.cbmem.wf

theorem Core.unpoison_mem (c : Core) (m m' : Mem) (a n : Nat) : (c.unpoison m a n).mem m' = c.mem m' := by
  unfold Core.unpoison
  simp only []
  split
  · rfl
  · cases m' <;> rfl

theorem Core.memWf_iff (c : Core) : c.memWf = true ↔ ∀ m, (c.mem m).wf = true := by
  constructor
  · intro h m
    simp only [Core.memWf, Bool.and_eq_true] at h
    cases m <;> simp_all [Core.mem]
  · intro h
    have h1 := h .ls
    have h2 := h .acc
    have h3 := h .mr
    have h4 := h .scale
    have h5 := h .cb
    simp only [Core.mem] at h1 h2 h3 h4 h5
    simp [Core.memWf, h1, h2, h3, h4, h5]

theorem Core.mem_setMem (c : Core) (m m' : Mem) (v : Memory) :
    (c.setMem m v).mem m' = if m' = m then v else c.mem m' := by
  cases m <;> cases m' <;> rfl

theorem Core.writeMem_memWf {c : Core} (h : c.memWf = true) (m : Mem) (a : Nat) (bs : List Byte) :
    (c.writeMem m a bs).memWf = true := by
  rw [Core.memWf_iff] at h ⊢
  intro m'
  unfold Core.writeMem
  rw [Core.unpoison_mem, Core.mem_setMem]
  split
  · exact Memory.write_wf (h m)
  · exact h m'

theorem Core.writePieces_memWf {ps : List (Nat × List Byte)} : ∀ {c : Core}, c.memWf = true → (m : Mem) →
    (c.writePieces m ps).memWf = true := by
  induction ps with
  | nil => intro c h m; exact h
  | cons p ps ih => intro c h m; exact ih (Core.writeMem_memWf h m p.1 p.2) m

theorem Core.readMem_mem (c : Core) (m m' : Mem) (bit a n : Nat) : (c.readMem m bit a n).2.mem m' = c.mem m' := by
  unfold Core.readMem
  simp only []
  split
  · cases m' <;> rfl
  · rfl

theorem Core.readMem_memWf {c : Core} (h : c.memWf = true) (m : Mem) (bit a n : Nat) :
    (c.readMem m bit a n).2.memWf = true := by
  rw [Core.memWf_iff] at h ⊢
  intro m'
  rw [Core.readMem_mem]
  exact h m'

end Sys2Proof.Machine
end

