-- ==== Sys2Proof/Laws/Issue.lean ====
section
/-! SUPPORT. What the issue of a word does: its place in time moves on, and nothing else of the part changes. -/

namespace Sys2Proof.Machine

/-! ## The fields that an issue leaves -/

@[simp] theorem State.advance_trunk (s : State) (i : Issue) : (s.advance i).trunk = s.trunk := by
  unfold State.advance; split <;> rfl
@[simp] theorem State.advance_boot (s : State) (i : Issue) : (s.advance i).boot = s.boot := by
  unfold State.advance; split <;> rfl
@[simp] theorem State.advance_bubble (s : State) (i : Issue) : (s.advance i).bubble = s.bubble := by
  unfold State.advance; split <;> rfl
@[simp] theorem State.advance_drawerL (s : State) (i : Issue) : (s.advance i).drawerL = s.drawerL := by
  unfold State.advance; split <;> rfl
@[simp] theorem State.advance_slots (s : State) (i : Issue) : (s.advance i).slots = s.slots := by
  unfold State.advance; split <;> rfl
@[simp] theorem State.advance_retrainLimit (s : State) (i : Issue) : (s.advance i).retrainLimit = s.retrainLimit := by
  unfold State.advance; split <;> rfl
@[simp] theorem State.advance_origin (s : State) (i : Issue) : (s.advance i).origin = s.origin := by
  unfold State.advance; split <;> rfl
@[simp] theorem State.advance_rollbackArea (s : State) (i : Issue) : (s.advance i).rollbackArea = s.rollbackArea := by
  unfold State.advance; split <;> rfl
@[simp] theorem State.advance_spillQueueSize (s : State) (i : Issue) : (s.advance i).spillQueueSize = s.spillQueueSize := by
  unfold State.advance; split <;> rfl
@[simp] theorem State.advance_areas (s : State) (i : Issue) : (s.advance i).areas = s.areas := by
  unfold State.advance; split <;> rfl
@[simp] theorem State.advance_monotonic (s : State) (i : Issue) : (s.advance i).monotonic = s.monotonic := by
  unfold State.advance; split <;> rfl
@[simp] theorem State.advance_measurements (s : State) (i : Issue) : (s.advance i).measurements = s.measurements := by
  unfold State.advance; split <;> rfl
@[simp] theorem State.advance_records (s : State) (i : Issue) : (s.advance i).records = s.records := by
  unfold State.advance; split <;> rfl
@[simp] theorem State.advance_attestKey (s : State) (i : Issue) : (s.advance i).attestKey = s.attestKey := by
  unfold State.advance; split <;> rfl
@[simp] theorem State.advance_identity (s : State) (i : Issue) : (s.advance i).identity = s.identity := by
  unfold State.advance; split <;> rfl
@[simp] theorem State.advance_identityCert (s : State) (i : Issue) : (s.advance i).identityCert = s.identityCert := by
  unfold State.advance; split <;> rfl
@[simp] theorem State.advance_planes (s : State) (i : Issue) : (s.advance i).planes = s.planes := by
  unfold State.advance; split <;> rfl
@[simp] theorem State.advance_planeOf (s : State) (i : Issue) : (s.advance i).planeOf = s.planeOf := by
  unfold State.advance; split <;> rfl
@[simp] theorem State.advance_gmem (s : State) (i : Issue) : (s.advance i).gmem = s.gmem := by
  unfold State.advance; split <;> rfl
@[simp] theorem State.advance_gpoison (s : State) (i : Issue) : (s.advance i).gpoison = s.gpoison := by
  unfold State.advance; split <;> rfl
@[simp] theorem State.advance_pages (s : State) (i : Issue) : (s.advance i).pages = s.pages := by
  unfold State.advance; split <;> rfl
@[simp] theorem State.advance_tensors (s : State) (i : Issue) : (s.advance i).tensors = s.tensors := by
  unfold State.advance; split <;> rfl
@[simp] theorem State.advance_cache (s : State) (i : Issue) : (s.advance i).cache = s.cache := by
  unfold State.advance; split <;> rfl
@[simp] theorem State.advance_dead (s : State) (i : Issue) : (s.advance i).dead = s.dead := by
  unfold State.advance; split <;> rfl
@[simp] theorem State.advance_pfops (s : State) (i : Issue) : (s.advance i).pfops = s.pfops := by
  unfold State.advance; split <;> rfl
@[simp] theorem State.advance_groupsDown (s : State) (i : Issue) : (s.advance i).groupsDown = s.groupsDown := by
  unfold State.advance; split <;> rfl
@[simp] theorem State.advance_retraining (s : State) (i : Issue) : (s.advance i).retraining = s.retraining := by
  unfold State.advance; split <;> rfl
@[simp] theorem State.advance_slotWrites (s : State) (i : Issue) : (s.advance i).slotWrites = s.slotWrites := by
  unfold State.advance; split <;> rfl
@[simp] theorem State.advance_shards (s : State) (i : Issue) : (s.advance i).shards = s.shards := by
  unfold State.advance; split <;> rfl
@[simp] theorem State.advance_checkpoints (s : State) (i : Issue) : (s.advance i).checkpoints = s.checkpoints := by
  unfold State.advance; split <;> rfl
@[simp] theorem State.advance_manifests (s : State) (i : Issue) : (s.advance i).manifests = s.manifests := by
  unfold State.advance; split <;> rfl
@[simp] theorem State.advance_relHist (s : State) (i : Issue) : (s.advance i).relHist = s.relHist := by
  unfold State.advance; split <;> rfl
@[simp] theorem State.advance_flags (s : State) (i : Issue) : (s.advance i).flags = s.flags := by
  unfold State.advance; split <;> rfl
@[simp] theorem State.advance_flagHist (s : State) (i : Issue) : (s.advance i).flagHist = s.flagHist := by
  unfold State.advance; split <;> rfl
@[simp] theorem State.advance_log (s : State) (i : Issue) : (s.advance i).log = s.log := by
  unfold State.advance; split <;> rfl
@[simp] theorem State.advance_opLog (s : State) (i : Issue) : (s.advance i).opLog = s.opLog := by
  unfold State.advance; split <;> rfl
@[simp] theorem State.advance_sliceLog (s : State) (i : Issue) : (s.advance i).sliceLog = s.sliceLog := by
  unfold State.advance; split <;> rfl
@[simp] theorem State.advance_madeLog (s : State) (i : Issue) : (s.advance i).madeLog = s.madeLog := by
  unfold State.advance; split <;> rfl
@[simp] theorem State.advance_past (s : State) (i : Issue) : (s.advance i).past = s.past := by
  unfold State.advance; split <;> rfl
@[simp] theorem State.advance_freedLog (s : State) (i : Issue) : (s.advance i).freedLog = s.freedLog := by
  unfold State.advance; split <;> rfl
@[simp] theorem State.advance_readLog (s : State) (i : Issue) : (s.advance i).readLog = s.readLog := by
  unfold State.advance; split <;> rfl
@[simp] theorem State.advance_waitLog (s : State) (i : Issue) : (s.advance i).waitLog = s.waitLog := by
  unfold State.advance; split <;> rfl
@[simp] theorem State.advance_revLog (s : State) (i : Issue) : (s.advance i).revLog = s.revLog := by
  unfold State.advance; split <;> rfl
@[simp] theorem State.advance_stallLog (s : State) (i : Issue) : (s.advance i).stallLog = s.stallLog := by
  unfold State.advance; split <;> rfl
@[simp] theorem State.advance_queueLog (s : State) (i : Issue) : (s.advance i).queueLog = s.queueLog := by
  unfold State.advance; split <;> rfl
@[simp] theorem State.advance_markers (s : State) (i : Issue) : (s.advance i).markers = s.markers := by
  unfold State.advance; split <;> rfl
@[simp] theorem State.advance_replayUntil (s : State) (i : Issue) : (s.advance i).replayUntil = s.replayUntil := by
  unfold State.advance; split <;> rfl
@[simp] theorem State.advance_faultBuf (s : State) (i : Issue) : (s.advance i).faultBuf = s.faultBuf := by
  unfold State.advance; split <;> rfl
@[simp] theorem State.advance_recSeq (s : State) (i : Issue) : (s.advance i).recSeq = s.recSeq := by
  unfold State.advance; split <;> rfl
@[simp] theorem State.advance_overflow (s : State) (i : Issue) : (s.advance i).overflow = s.overflow := by
  unfold State.advance; split <;> rfl
@[simp] theorem State.advance_infoDropped (s : State) (i : Issue) : (s.advance i).infoDropped = s.infoDropped := by
  unfold State.advance; split <;> rfl
@[simp] theorem State.advance_overflowTold (s : State) (i : Issue) : (s.advance i).overflowTold = s.overflowTold := by
  unfold State.advance; split <;> rfl
@[simp] theorem State.advance_launches (s : State) (i : Issue) : (s.advance i).launches = s.launches := by
  unfold State.advance; split <;> rfl
@[simp] theorem State.advance_task (s : State) (i : Issue) : (s.advance i).task = s.task := by
  unfold State.advance; split <;> rfl
@[simp] theorem State.advance_retiring (s : State) (i : Issue) : (s.advance i).retiring = s.retiring := by
  unfold State.advance; split <;> rfl
@[simp] theorem State.advance_contextLaunch (s : State) (i : Issue) : (s.advance i).contextLaunch = s.contextLaunch := by
  unfold State.advance; split <;> rfl
@[simp] theorem State.advance_pool (s : State) (i : Issue) : (s.advance i).pool = s.pool := by
  unfold State.advance; split <;> rfl
@[simp] theorem State.advance_spillQ (s : State) (i : Issue) : (s.advance i).spillQ = s.spillQ := by
  unfold State.advance; split <;> rfl
@[simp] theorem State.advance_journal (s : State) (i : Issue) : (s.advance i).journal = s.journal := by
  unfold State.advance; split <;> rfl
@[simp] theorem State.advance_jseq (s : State) (i : Issue) : (s.advance i).jseq = s.jseq := by
  unfold State.advance; split <;> rfl
@[simp] theorem State.advance_crowns (s : State) (i : Issue) : (s.advance i).crowns = s.crowns := by
  unfold State.advance; split <;> rfl
@[simp] theorem State.advance_crownDown (s : State) (i : Issue) : (s.advance i).crownDown = s.crownDown := by
  unfold State.advance; split <;> rfl
@[simp] theorem State.advance_takeoverAt (s : State) (i : Issue) : (s.advance i).takeoverAt = s.takeoverAt := by
  unfold State.advance; split <;> rfl
@[simp] theorem State.advance_heldRetirements (s : State) (i : Issue) : (s.advance i).heldRetirements = s.heldRetirements := by
  unfold State.advance; split <;> rfl
@[simp] theorem State.advance_dispatchAt (s : State) (i : Issue) : (s.advance i).dispatchAt = s.dispatchAt := by
  unfold State.advance; split <;> rfl
@[simp] theorem State.advance_loadAt (s : State) (i : Issue) : (s.advance i).loadAt = s.loadAt := by
  unfold State.advance; split <;> rfl
@[simp] theorem State.advance_saved (s : State) (i : Issue) : (s.advance i).saved = s.saved := by
  unfold State.advance; split <;> rfl
@[simp] theorem State.advance_snaps (s : State) (i : Issue) : (s.advance i).snaps = s.snaps := by
  unfold State.advance; split <;> rfl
@[simp] theorem State.advance_tenants (s : State) (i : Issue) : (s.advance i).tenants = s.tenants := by
  unfold State.advance; split <;> rfl
@[simp] theorem State.advance_hmaj (s : State) (i : Issue) : (s.advance i).hmaj = s.hmaj := by
  unfold State.advance; split <;> rfl
@[simp] theorem State.advance_hmin (s : State) (i : Issue) : (s.advance i).hmin = s.hmin := by
  unfold State.advance; split <;> rfl
@[simp] theorem State.advance_hacc (s : State) (i : Issue) : (s.advance i).hacc = s.hacc := by
  unfold State.advance; split <;> rfl
@[simp] theorem State.advance_stations (s : State) (i : Issue) : (s.advance i).stations = s.stations := by
  unfold State.advance; split <;> rfl
@[simp] theorem State.advance_members (s : State) (i : Issue) : (s.advance i).members = s.members := by
  unfold State.advance; split <;> rfl
@[simp] theorem State.advance_podAcks (s : State) (i : Issue) : (s.advance i).podAcks = s.podAcks := by
  unfold State.advance; split <;> rfl
@[simp] theorem State.advance_heldPackets (s : State) (i : Issue) : (s.advance i).heldPackets = s.heldPackets := by
  unfold State.advance; split <;> rfl
@[simp] theorem State.advance_mgmtLog (s : State) (i : Issue) : (s.advance i).mgmtLog = s.mgmtLog := by
  unfold State.advance; split <;> rfl
@[simp] theorem State.advance_mgmtReports (s : State) (i : Issue) : (s.advance i).mgmtReports = s.mgmtReports := by
  unfold State.advance; split <;> rfl
@[simp] theorem State.advance_debugger (s : State) (i : Issue) : (s.advance i).debugger = s.debugger := by
  unfold State.advance; split <;> rfl
@[simp] theorem State.advance_agenda (s : State) (i : Issue) : (s.advance i).agenda = s.agenda := by
  unfold State.advance; split <;> rfl
@[simp] theorem State.advance_free (s : State) (i : Issue) : (s.advance i).free = s.free := by
  unfold State.advance; split <;> rfl
@[simp] theorem State.advance_core_y (s : State) (i : Issue) : (s.advance i).core.y = s.core.y := by
  unfold State.advance; split
  · rfl
  · exact Core.setCl_y _ _ _
@[simp] theorem State.advance_core_h (s : State) (i : Issue) : (s.advance i).core.h = s.core.h := by
  unfold State.advance; split
  · rfl
  · exact Core.setCl_h _ _ _
@[simp] theorem State.advance_core_k (s : State) (i : Issue) : (s.advance i).core.k = s.core.k := by
  unfold State.advance; split
  · rfl
  · exact Core.setCl_k _ _ _
@[simp] theorem State.advance_core_q (s : State) (i : Issue) : (s.advance i).core.q = s.core.q := by
  unfold State.advance; split
  · rfl
  · exact Core.setCl_q _ _ _
@[simp] theorem State.advance_core_cb (s : State) (i : Issue) : (s.advance i).core.cb = s.core.cb := by
  unfold State.advance; split
  · rfl
  · exact Core.setCl_cb _ _ _
@[simp] theorem State.advance_core_clag (s : State) (i : Issue) : (s.advance i).core.clag = s.core.clag := by
  unfold State.advance; split
  · rfl
  · exact Core.setCl_clag _ _ _
@[simp] theorem State.advance_core_cir (s : State) (i : Issue) : (s.advance i).core.cir = s.core.cir := by
  unfold State.advance; split
  · rfl
  · exact Core.setCl_cir _ _ _
@[simp] theorem State.advance_core_nest (s : State) (i : Issue) : (s.advance i).core.nest = s.core.nest := by
  unfold State.advance; split
  · rfl
  · exact Core.setCl_nest _ _ _
@[simp] theorem State.advance_core_lcore (s : State) (i : Issue) : (s.advance i).core.lcore = s.core.lcore := by
  unfold State.advance; split
  · rfl
  · exact Core.setCl_lcore _ _ _
@[simp] theorem State.advance_core_pcore (s : State) (i : Issue) : (s.advance i).core.pcore = s.core.pcore := by
  unfold State.advance; split
  · rfl
  · exact Core.setCl_pcore _ _ _
@[simp] theorem State.advance_core_plane (s : State) (i : Issue) : (s.advance i).core.plane = s.core.plane := by
  unfold State.advance; split
  · rfl
  · exact Core.setCl_plane _ _ _
@[simp] theorem State.advance_core_prio (s : State) (i : Issue) : (s.advance i).core.prio = s.core.prio := by
  unfold State.advance; split
  · rfl
  · exact Core.setCl_prio _ _ _
@[simp] theorem State.advance_core_tenant (s : State) (i : Issue) : (s.advance i).core.tenant = s.core.tenant := by
  unfold State.advance; split
  · rfl
  · exact Core.setCl_tenant _ _ _
@[simp] theorem State.advance_core_traprec (s : State) (i : Issue) : (s.advance i).core.traprec = s.core.traprec := by
  unfold State.advance; split
  · rfl
  · exact Core.setCl_traprec _ _ _
@[simp] theorem State.advance_core_mxret (s : State) (i : Issue) : (s.advance i).core.mxret = s.core.mxret := by
  unfold State.advance; split
  · rfl
  · exact Core.setCl_mxret _ _ _
@[simp] theorem State.advance_core_ftab (s : State) (i : Issue) : (s.advance i).core.ftab = s.core.ftab := by
  unfold State.advance; split
  · rfl
  · exact Core.setCl_ftab _ _ _
@[simp] theorem State.advance_core_tol (s : State) (i : Issue) : (s.advance i).core.tol = s.core.tol := by
  unfold State.advance; split
  · rfl
  · exact Core.setCl_tol _ _ _
@[simp] theorem State.advance_core_fij (s : State) (i : Issue) : (s.advance i).core.fij = s.core.fij := by
  unfold State.advance; split
  · rfl
  · exact Core.setCl_fij _ _ _
@[simp] theorem State.advance_core_kend (s : State) (i : Issue) : (s.advance i).core.kend = s.core.kend := by
  unfold State.advance; split
  · rfl
  · exact Core.setCl_kend _ _ _
@[simp] theorem State.advance_core_ls (s : State) (i : Issue) : (s.advance i).core.ls = s.core.ls := by
  unfold State.advance; split
  · rfl
  · exact Core.setCl_ls _ _ _
@[simp] theorem State.advance_core_acc (s : State) (i : Issue) : (s.advance i).core.acc = s.core.acc := by
  unfold State.advance; split
  · rfl
  · exact Core.setCl_acc _ _ _
@[simp] theorem State.advance_core_mr (s : State) (i : Issue) : (s.advance i).core.mr = s.core.mr := by
  unfold State.advance; split
  · rfl
  · exact Core.setCl_mr _ _ _
@[simp] theorem State.advance_core_scale (s : State) (i : Issue) : (s.advance i).core.scale = s.core.scale := by
  unfold State.advance; split
  · rfl
  · exact Core.setCl_scale _ _ _
@[simp] theorem State.advance_core_cbmem (s : State) (i : Issue) : (s.advance i).core.cbmem = s.core.cbmem := by
  unfold State.advance; split
  · rfl
  · exact Core.setCl_cbmem _ _ _
@[simp] theorem State.advance_core_poison (s : State) (i : Issue) : (s.advance i).core.poison = s.core.poison := by
  unfold State.advance; split
  · rfl
  · exact Core.setCl_poison _ _ _
@[simp] theorem State.advance_core_allocated (s : State) (i : Issue) : (s.advance i).core.allocated = s.core.allocated := by
  unfold State.advance; split
  · rfl
  · exact Core.setCl_allocated _ _ _
@[simp] theorem State.advance_core_owner (s : State) (i : Issue) : (s.advance i).core.owner = s.core.owner := by
  unfold State.advance; split
  · rfl
  · exact Core.setCl_owner _ _ _
@[simp] theorem State.advance_core_accLanes (s : State) (i : Issue) : (s.advance i).core.accLanes = s.core.accLanes := by
  unfold State.advance; split
  · rfl
  · exact Core.setCl_accLanes _ _ _
@[simp] theorem State.advance_core_mrLanes (s : State) (i : Issue) : (s.advance i).core.mrLanes = s.core.mrLanes := by
  unfold State.advance; split
  · rfl
  · exact Core.setCl_mrLanes _ _ _
@[simp] theorem State.advance_core_retry (s : State) (i : Issue) : (s.advance i).core.retry = s.core.retry := by
  unfold State.advance; split
  · rfl
  · exact Core.setCl_retry _ _ _
@[simp] theorem State.advance_core_banks (s : State) (i : Issue) : (s.advance i).core.banks = s.core.banks := by
  unfold State.advance; split
  · rfl
  · exact Core.setCl_banks _ _ _
@[simp] theorem State.advance_core_regions (s : State) (i : Issue) : (s.advance i).core.regions = s.core.regions := by
  unfold State.advance; split
  · rfl
  · exact Core.setCl_regions _ _ _
@[simp] theorem State.advance_core_phase (s : State) (i : Issue) : (s.advance i).core.phase = s.core.phase := by
  unfold State.advance; split
  · rfl
  · exact Core.setCl_phase _ _ _
@[simp] theorem State.advance_core_expTag (s : State) (i : Issue) : (s.advance i).core.expTag = s.core.expTag := by
  unfold State.advance; split
  · rfl
  · exact Core.setCl_expTag _ _ _
@[simp] theorem State.advance_core_swapCore (s : State) (i : Issue) : (s.advance i).core.swapCore = s.core.swapCore := by
  unfold State.advance; split
  · rfl
  · exact Core.setCl_swapCore _ _ _
@[simp] theorem State.advance_core_swapTrunk (s : State) (i : Issue) : (s.advance i).core.swapTrunk = s.core.swapTrunk := by
  unfold State.advance; split
  · rfl
  · exact Core.setCl_swapTrunk _ _ _
@[simp] theorem State.advance_core_fronts (s : State) (i : Issue) : (s.advance i).core.fronts = s.core.fronts := by
  unfold State.advance; split
  · rfl
  · exact Core.setCl_fronts _ _ _
@[simp] theorem State.advance_core_timeline (s : State) (i : Issue) : (s.advance i).core.timeline = s.core.timeline := by
  unfold State.advance; split
  · rfl
  · exact Core.setCl_timeline _ _ _
@[simp] theorem State.advance_core_made (s : State) (i : Issue) : (s.advance i).core.made = s.core.made := by
  unfold State.advance; split
  · rfl
  · exact Core.setCl_made _ _ _
@[simp] theorem State.advance_core_calendar (s : State) (i : Issue) : (s.advance i).core.calendar = s.core.calendar := by
  unfold State.advance; split
  · rfl
  · exact Core.setCl_calendar _ _ _
@[simp] theorem State.advance_core_bufs (s : State) (i : Issue) : (s.advance i).core.bufs = s.core.bufs := by
  unfold State.advance; split
  · rfl
  · exact Core.setCl_bufs _ _ _
@[simp] theorem State.advance_core_vecFree (s : State) (i : Issue) : (s.advance i).core.vecFree = s.core.vecFree := by
  unfold State.advance; split
  · rfl
  · exact Core.setCl_vecFree _ _ _
@[simp] theorem State.advance_core_mxFree (s : State) (i : Issue) : (s.advance i).core.mxFree = s.core.mxFree := by
  unfold State.advance; split
  · rfl
  · exact Core.setCl_mxFree _ _ _
@[simp] theorem State.advance_core_spillFree (s : State) (i : Issue) : (s.advance i).core.spillFree = s.core.spillFree := by
  unfold State.advance; split
  · rfl
  · exact Core.setCl_spillFree _ _ _
@[simp] theorem State.advance_core_patchFree (s : State) (i : Issue) : (s.advance i).core.patchFree = s.core.patchFree := by
  unfold State.advance; split
  · rfl
  · exact Core.setCl_patchFree _ _ _
@[simp] theorem State.advance_core_copyQ (s : State) (i : Issue) : (s.advance i).core.copyQ = s.core.copyQ := by
  unfold State.advance; split
  · rfl
  · exact Core.setCl_copyQ _ _ _
@[simp] theorem State.advance_core_fills (s : State) (i : Issue) : (s.advance i).core.fills = s.core.fills := by
  unfold State.advance; split
  · rfl
  · exact Core.setCl_fills _ _ _
@[simp] theorem State.advance_core_pseq (s : State) (i : Issue) : (s.advance i).core.pseq = s.core.pseq := by
  unfold State.advance; split
  · rfl
  · exact Core.setCl_pseq _ _ _
@[simp] theorem State.advance_core_kseq (s : State) (i : Issue) : (s.advance i).core.kseq = s.core.kseq := by
  unfold State.advance; split
  · rfl
  · exact Core.setCl_kseq _ _ _
@[simp] theorem State.advance_core_ops (s : State) (i : Issue) : (s.advance i).core.ops = s.core.ops := by
  unfold State.advance; split
  · rfl
  · exact Core.setCl_ops _ _ _
@[simp] theorem State.advance_core_mine (s : State) (i : Issue) : (s.advance i).core.mine = s.core.mine := by
  unfold State.advance; split
  · rfl
  · exact Core.setCl_mine _ _ _
@[simp] theorem State.advance_core_lastAnswer (s : State) (i : Issue) : (s.advance i).core.lastAnswer = s.core.lastAnswer := by
  unfold State.advance; split
  · rfl
  · exact Core.setCl_lastAnswer _ _ _
@[simp] theorem State.advance_core_releases (s : State) (i : Issue) : (s.advance i).core.releases = s.core.releases := by
  unfold State.advance; split
  · rfl
  · exact Core.setCl_releases _ _ _
@[simp] theorem State.advance_core_observed (s : State) (i : Issue) : (s.advance i).core.observed = s.core.observed := by
  unfold State.advance; split
  · rfl
  · exact Core.setCl_observed _ _ _
@[simp] theorem State.advance_core_pftok (s : State) (i : Issue) : (s.advance i).core.pftok = s.core.pftok := by
  unfold State.advance; split
  · rfl
  · exact Core.setCl_pftok _ _ _
@[simp] theorem State.advance_core_kick (s : State) (i : Issue) : (s.advance i).core.kick = s.core.kick := by
  unfold State.advance; split
  · rfl
  · exact Core.setCl_kick _ _ _
@[simp] theorem State.advance_core_freeze (s : State) (i : Issue) : (s.advance i).core.freeze = s.core.freeze := by
  unfold State.advance; split
  · rfl
  · exact Core.setCl_freeze _ _ _
@[simp] theorem State.advance_core_faultQ (s : State) (i : Issue) : (s.advance i).core.faultQ = s.core.faultQ := by
  unfold State.advance; split
  · rfl
  · exact Core.setCl_faultQ _ _ _
@[simp] theorem State.advance_core_waitQ (s : State) (i : Issue) : (s.advance i).core.waitQ = s.core.waitQ := by
  unfold State.advance; split
  · rfl
  · exact Core.setCl_waitQ _ _ _
@[simp] theorem State.advance_core_handling (s : State) (i : Issue) : (s.advance i).core.handling = s.core.handling := by
  unfold State.advance; split
  · rfl
  · exact Core.setCl_handling _ _ _
@[simp] theorem State.advance_core_handled (s : State) (i : Issue) : (s.advance i).core.handled = s.core.handled := by
  unfold State.advance; split
  · rfl
  · exact Core.setCl_handled _ _ _
@[simp] theorem State.advance_core_faultAt (s : State) (i : Issue) : (s.advance i).core.faultAt = s.core.faultAt := by
  unfold State.advance; split
  · rfl
  · exact Core.setCl_faultAt _ _ _
@[simp] theorem State.advance_core_heldRec (s : State) (i : Issue) : (s.advance i).core.heldRec = s.core.heldRec := by
  unfold State.advance; split
  · rfl
  · exact Core.setCl_heldRec _ _ _
@[simp] theorem State.advance_core_pending (s : State) (i : Issue) : (s.advance i).core.pending = s.core.pending := by
  unfold State.advance; split
  · rfl
  · exact Core.setCl_pending _ _ _
@[simp] theorem State.advance_core_yielded (s : State) (i : Issue) : (s.advance i).core.yielded = s.core.yielded := by
  unfold State.advance; split
  · rfl
  · exact Core.setCl_yielded _ _ _
@[simp] theorem State.advance_core_holdOthers (s : State) (i : Issue) : (s.advance i).core.holdOthers = s.core.holdOthers := by
  unfold State.advance; split
  · rfl
  · exact Core.setCl_holdOthers _ _ _
@[simp] theorem State.advance_core_qjump (s : State) (i : Issue) : (s.advance i).core.qjump = s.core.qjump := by
  unfold State.advance; split
  · rfl
  · exact Core.setCl_qjump _ _ _
@[simp] theorem State.advance_core_phaseIdx (s : State) (i : Issue) : (s.advance i).core.phaseIdx = s.core.phaseIdx := by
  unfold State.advance; split
  · rfl
  · exact Core.setCl_phaseIdx _ _ _
@[simp] theorem State.advance_core_touched (s : State) (i : Issue) : (s.advance i).core.touched = s.core.touched := by
  unfold State.advance; split
  · rfl
  · exact Core.setCl_touched _ _ _
@[simp] theorem State.advance_core_protectedPhase (s : State) (i : Issue) : (s.advance i).core.protectedPhase = s.core.protectedPhase := by
  unfold State.advance; split
  · rfl
  · exact Core.setCl_protectedPhase _ _ _
@[simp] theorem State.advance_core_stepRem (s : State) (i : Issue) : (s.advance i).core.stepRem = s.core.stepRem := by
  unfold State.advance; split
  · rfl
  · exact Core.setCl_stepRem _ _ _
@[simp] theorem State.hold_trunk (s : State) (i : Issue) : (s.hold i).trunk = s.trunk := by
  unfold State.hold; split <;> rfl
@[simp] theorem State.hold_boot (s : State) (i : Issue) : (s.hold i).boot = s.boot := by
  unfold State.hold; split <;> rfl
@[simp] theorem State.hold_bubble (s : State) (i : Issue) : (s.hold i).bubble = s.bubble := by
  unfold State.hold; split <;> rfl
@[simp] theorem State.hold_drawerL (s : State) (i : Issue) : (s.hold i).drawerL = s.drawerL := by
  unfold State.hold; split <;> rfl
@[simp] theorem State.hold_slots (s : State) (i : Issue) : (s.hold i).slots = s.slots := by
  unfold State.hold; split <;> rfl
@[simp] theorem State.hold_retrainLimit (s : State) (i : Issue) : (s.hold i).retrainLimit = s.retrainLimit := by
  unfold State.hold; split <;> rfl
@[simp] theorem State.hold_origin (s : State) (i : Issue) : (s.hold i).origin = s.origin := by
  unfold State.hold; split <;> rfl
@[simp] theorem State.hold_rollbackArea (s : State) (i : Issue) : (s.hold i).rollbackArea = s.rollbackArea := by
  unfold State.hold; split <;> rfl
@[simp] theorem State.hold_spillQueueSize (s : State) (i : Issue) : (s.hold i).spillQueueSize = s.spillQueueSize := by
  unfold State.hold; split <;> rfl
@[simp] theorem State.hold_areas (s : State) (i : Issue) : (s.hold i).areas = s.areas := by
  unfold State.hold; split <;> rfl
@[simp] theorem State.hold_monotonic (s : State) (i : Issue) : (s.hold i).monotonic = s.monotonic := by
  unfold State.hold; split <;> rfl
@[simp] theorem State.hold_measurements (s : State) (i : Issue) : (s.hold i).measurements = s.measurements := by
  unfold State.hold; split <;> rfl
@[simp] theorem State.hold_records (s : State) (i : Issue) : (s.hold i).records = s.records := by
  unfold State.hold; split <;> rfl
@[simp] theorem State.hold_attestKey (s : State) (i : Issue) : (s.hold i).attestKey = s.attestKey := by
  unfold State.hold; split <;> rfl
@[simp] theorem State.hold_identity (s : State) (i : Issue) : (s.hold i).identity = s.identity := by
  unfold State.hold; split <;> rfl
@[simp] theorem State.hold_identityCert (s : State) (i : Issue) : (s.hold i).identityCert = s.identityCert := by
  unfold State.hold; split <;> rfl
@[simp] theorem State.hold_planes (s : State) (i : Issue) : (s.hold i).planes = s.planes := by
  unfold State.hold; split <;> rfl
@[simp] theorem State.hold_planeOf (s : State) (i : Issue) : (s.hold i).planeOf = s.planeOf := by
  unfold State.hold; split <;> rfl
@[simp] theorem State.hold_gmem (s : State) (i : Issue) : (s.hold i).gmem = s.gmem := by
  unfold State.hold; split <;> rfl
@[simp] theorem State.hold_gpoison (s : State) (i : Issue) : (s.hold i).gpoison = s.gpoison := by
  unfold State.hold; split <;> rfl
@[simp] theorem State.hold_pages (s : State) (i : Issue) : (s.hold i).pages = s.pages := by
  unfold State.hold; split <;> rfl
@[simp] theorem State.hold_tensors (s : State) (i : Issue) : (s.hold i).tensors = s.tensors := by
  unfold State.hold; split <;> rfl
@[simp] theorem State.hold_cache (s : State) (i : Issue) : (s.hold i).cache = s.cache := by
  unfold State.hold; split <;> rfl
@[simp] theorem State.hold_dead (s : State) (i : Issue) : (s.hold i).dead = s.dead := by
  unfold State.hold; split <;> rfl
@[simp] theorem State.hold_pfops (s : State) (i : Issue) : (s.hold i).pfops = s.pfops := by
  unfold State.hold; split <;> rfl
@[simp] theorem State.hold_groupsDown (s : State) (i : Issue) : (s.hold i).groupsDown = s.groupsDown := by
  unfold State.hold; split <;> rfl
@[simp] theorem State.hold_retraining (s : State) (i : Issue) : (s.hold i).retraining = s.retraining := by
  unfold State.hold; split <;> rfl
@[simp] theorem State.hold_slotWrites (s : State) (i : Issue) : (s.hold i).slotWrites = s.slotWrites := by
  unfold State.hold; split <;> rfl
@[simp] theorem State.hold_shards (s : State) (i : Issue) : (s.hold i).shards = s.shards := by
  unfold State.hold; split <;> rfl
@[simp] theorem State.hold_checkpoints (s : State) (i : Issue) : (s.hold i).checkpoints = s.checkpoints := by
  unfold State.hold; split <;> rfl
@[simp] theorem State.hold_manifests (s : State) (i : Issue) : (s.hold i).manifests = s.manifests := by
  unfold State.hold; split <;> rfl
@[simp] theorem State.hold_relHist (s : State) (i : Issue) : (s.hold i).relHist = s.relHist := by
  unfold State.hold; split <;> rfl
@[simp] theorem State.hold_flags (s : State) (i : Issue) : (s.hold i).flags = s.flags := by
  unfold State.hold; split <;> rfl
@[simp] theorem State.hold_flagHist (s : State) (i : Issue) : (s.hold i).flagHist = s.flagHist := by
  unfold State.hold; split <;> rfl
@[simp] theorem State.hold_log (s : State) (i : Issue) : (s.hold i).log = s.log := by
  unfold State.hold; split <;> rfl
@[simp] theorem State.hold_opLog (s : State) (i : Issue) : (s.hold i).opLog = s.opLog := by
  unfold State.hold; split <;> rfl
@[simp] theorem State.hold_sliceLog (s : State) (i : Issue) : (s.hold i).sliceLog = s.sliceLog := by
  unfold State.hold; split <;> rfl
@[simp] theorem State.hold_madeLog (s : State) (i : Issue) : (s.hold i).madeLog = s.madeLog := by
  unfold State.hold; split <;> rfl
@[simp] theorem State.hold_past (s : State) (i : Issue) : (s.hold i).past = s.past := by
  unfold State.hold; split <;> rfl
@[simp] theorem State.hold_freedLog (s : State) (i : Issue) : (s.hold i).freedLog = s.freedLog := by
  unfold State.hold; split <;> rfl
@[simp] theorem State.hold_readLog (s : State) (i : Issue) : (s.hold i).readLog = s.readLog := by
  unfold State.hold; split <;> rfl
@[simp] theorem State.hold_waitLog (s : State) (i : Issue) : (s.hold i).waitLog = s.waitLog := by
  unfold State.hold; split <;> rfl
@[simp] theorem State.hold_revLog (s : State) (i : Issue) : (s.hold i).revLog = s.revLog := by
  unfold State.hold; split <;> rfl
@[simp] theorem State.hold_stallLog (s : State) (i : Issue) : (s.hold i).stallLog = s.stallLog := by
  unfold State.hold; split <;> rfl
@[simp] theorem State.hold_queueLog (s : State) (i : Issue) : (s.hold i).queueLog = s.queueLog := by
  unfold State.hold; split <;> rfl
@[simp] theorem State.hold_markers (s : State) (i : Issue) : (s.hold i).markers = s.markers := by
  unfold State.hold; split <;> rfl
@[simp] theorem State.hold_replayUntil (s : State) (i : Issue) : (s.hold i).replayUntil = s.replayUntil := by
  unfold State.hold; split <;> rfl
@[simp] theorem State.hold_faultBuf (s : State) (i : Issue) : (s.hold i).faultBuf = s.faultBuf := by
  unfold State.hold; split <;> rfl
@[simp] theorem State.hold_recSeq (s : State) (i : Issue) : (s.hold i).recSeq = s.recSeq := by
  unfold State.hold; split <;> rfl
@[simp] theorem State.hold_overflow (s : State) (i : Issue) : (s.hold i).overflow = s.overflow := by
  unfold State.hold; split <;> rfl
@[simp] theorem State.hold_infoDropped (s : State) (i : Issue) : (s.hold i).infoDropped = s.infoDropped := by
  unfold State.hold; split <;> rfl
@[simp] theorem State.hold_overflowTold (s : State) (i : Issue) : (s.hold i).overflowTold = s.overflowTold := by
  unfold State.hold; split <;> rfl
@[simp] theorem State.hold_launches (s : State) (i : Issue) : (s.hold i).launches = s.launches := by
  unfold State.hold; split <;> rfl
@[simp] theorem State.hold_task (s : State) (i : Issue) : (s.hold i).task = s.task := by
  unfold State.hold; split <;> rfl
@[simp] theorem State.hold_retiring (s : State) (i : Issue) : (s.hold i).retiring = s.retiring := by
  unfold State.hold; split <;> rfl
@[simp] theorem State.hold_contextLaunch (s : State) (i : Issue) : (s.hold i).contextLaunch = s.contextLaunch := by
  unfold State.hold; split <;> rfl
@[simp] theorem State.hold_pool (s : State) (i : Issue) : (s.hold i).pool = s.pool := by
  unfold State.hold; split <;> rfl
@[simp] theorem State.hold_spillQ (s : State) (i : Issue) : (s.hold i).spillQ = s.spillQ := by
  unfold State.hold; split <;> rfl
@[simp] theorem State.hold_journal (s : State) (i : Issue) : (s.hold i).journal = s.journal := by
  unfold State.hold; split <;> rfl
@[simp] theorem State.hold_jseq (s : State) (i : Issue) : (s.hold i).jseq = s.jseq := by
  unfold State.hold; split <;> rfl
@[simp] theorem State.hold_crowns (s : State) (i : Issue) : (s.hold i).crowns = s.crowns := by
  unfold State.hold; split <;> rfl
@[simp] theorem State.hold_crownDown (s : State) (i : Issue) : (s.hold i).crownDown = s.crownDown := by
  unfold State.hold; split <;> rfl
@[simp] theorem State.hold_takeoverAt (s : State) (i : Issue) : (s.hold i).takeoverAt = s.takeoverAt := by
  unfold State.hold; split <;> rfl
@[simp] theorem State.hold_heldRetirements (s : State) (i : Issue) : (s.hold i).heldRetirements = s.heldRetirements := by
  unfold State.hold; split <;> rfl
@[simp] theorem State.hold_dispatchAt (s : State) (i : Issue) : (s.hold i).dispatchAt = s.dispatchAt := by
  unfold State.hold; split <;> rfl
@[simp] theorem State.hold_loadAt (s : State) (i : Issue) : (s.hold i).loadAt = s.loadAt := by
  unfold State.hold; split <;> rfl
@[simp] theorem State.hold_saved (s : State) (i : Issue) : (s.hold i).saved = s.saved := by
  unfold State.hold; split <;> rfl
@[simp] theorem State.hold_snaps (s : State) (i : Issue) : (s.hold i).snaps = s.snaps := by
  unfold State.hold; split <;> rfl
@[simp] theorem State.hold_tenants (s : State) (i : Issue) : (s.hold i).tenants = s.tenants := by
  unfold State.hold; split <;> rfl
@[simp] theorem State.hold_hmaj (s : State) (i : Issue) : (s.hold i).hmaj = s.hmaj := by
  unfold State.hold; split <;> rfl
@[simp] theorem State.hold_hmin (s : State) (i : Issue) : (s.hold i).hmin = s.hmin := by
  unfold State.hold; split <;> rfl
@[simp] theorem State.hold_hacc (s : State) (i : Issue) : (s.hold i).hacc = s.hacc := by
  unfold State.hold; split <;> rfl
@[simp] theorem State.hold_stations (s : State) (i : Issue) : (s.hold i).stations = s.stations := by
  unfold State.hold; split <;> rfl
@[simp] theorem State.hold_members (s : State) (i : Issue) : (s.hold i).members = s.members := by
  unfold State.hold; split <;> rfl
@[simp] theorem State.hold_podAcks (s : State) (i : Issue) : (s.hold i).podAcks = s.podAcks := by
  unfold State.hold; split <;> rfl
@[simp] theorem State.hold_heldPackets (s : State) (i : Issue) : (s.hold i).heldPackets = s.heldPackets := by
  unfold State.hold; split <;> rfl
@[simp] theorem State.hold_mgmtLog (s : State) (i : Issue) : (s.hold i).mgmtLog = s.mgmtLog := by
  unfold State.hold; split <;> rfl
@[simp] theorem State.hold_mgmtReports (s : State) (i : Issue) : (s.hold i).mgmtReports = s.mgmtReports := by
  unfold State.hold; split <;> rfl
@[simp] theorem State.hold_debugger (s : State) (i : Issue) : (s.hold i).debugger = s.debugger := by
  unfold State.hold; split <;> rfl
@[simp] theorem State.hold_agenda (s : State) (i : Issue) : (s.hold i).agenda = s.agenda := by
  unfold State.hold; split <;> rfl
@[simp] theorem State.hold_free (s : State) (i : Issue) : (s.hold i).free = s.free := by
  unfold State.hold; split <;> rfl

/-! ## Registers across an issue -/

/-- The registers of a cluster are the same after an issue. -/
theorem State.advance_regs (s : State) (i : Issue) (k : Cluster) :
    ((s.advance i).core.cl k).g = (s.core.cl k).g ∧ ((s.advance i).core.cl k).a = (s.core.cl k).a ∧
      ((s.advance i).core.cl k).p = (s.core.cl k).p := by
  unfold State.advance
  split
  · cases k <;> exact ⟨rfl, rfl, rfl⟩
  · by_cases h : k = i.c
    · subst h
      simp only [Core.cl]
      cases i.c <;> simp only [Core.setCl] <;> split <;> exact ⟨rfl, rfl, rfl⟩
    · have e : ∀ x, ((s.core.setCl i.c x).cl k) = s.core.cl k := fun x => Core.cl_setCl_other _ _ h
      cases k <;> simp only [Core.cl] at e ⊢ <;> rw [e] <;> exact ⟨rfl, rfl, rfl⟩

theorem State.advance_shadow_regs (s : State) (i : Issue) :
    (s.advance i).core.shadow.g = s.core.shadow.g ∧ (s.advance i).core.shadow.p = s.core.shadow.p := by
  unfold State.advance
  split
  · exact ⟨rfl, rfl⟩
  · simp

@[simp] theorem State.readG_advance (s : State) (i : Issue) (n : BitVec 5) : (s.advance i).readG i n = s.readG i n := by
  unfold State.readG Shadow.readG ClusterSt.readG
  simp only [(s.advance_regs i i.c).1, (s.advance_shadow_regs i).1]

@[simp] theorem State.readA_advance (s : State) (i : Issue) (n : BitVec 4) : (s.advance i).readA i n = s.readA i n := by
  unfold State.readA ClusterSt.readA
  simp only [(s.advance_regs i i.c).2.1]

@[simp] theorem State.readP_advance (s : State) (i : Issue) (n : BitVec 5) : (s.advance i).readP i n = s.readP i n := by
  unfold State.readP Shadow.readP ClusterSt.readP
  simp only [(s.advance_regs i i.c).2.2, (s.advance_shadow_regs i).2]

@[simp] theorem State.readSrc_advance (s : State) (i : Issue) (x : Src) : (s.advance i).readSrc i x = s.readSrc i x := by
  cases x <;> simp [State.readSrc, Core.readY, Core.readK]

@[simp] theorem State.readFSrc_advance (s : State) (i : Issue) (x : FSrc) : (s.advance i).readFSrc i x = s.readFSrc i x := by
  cases x <;> simp [State.readFSrc, Core.readY]

/-! ## How a word runs -/

/-- A word with its effect. -/
theorem runWordIf_ok {opc fn : Nat} {wh : Where} {legal : Issue → State → Bool} {hd : Head} {eff : Issue → State → Res} {s t : State}
    (h : s.Issues hd opc wh) (hl : legal (Issue.of s hd opc) s = true)
    (he : eff (Issue.of s hd opc) (s.advance (Issue.of s hd opc)) = .ok t) :
    runWordIf opc fn wh legal hd eff s = .next t := by
  simp [runWordIf, h.1, h.2, hl, he]

theorem runWord_ok {opc fn : Nat} {wh : Where} {hd : Head} {eff : Issue → State → Res} {s t : State}
    (h : s.Issues hd opc wh) (he : eff (Issue.of s hd opc) (s.advance (Issue.of s hd opc)) = .ok t) :
    runWord opc fn wh hd eff s = .next t := runWordIf_ok h rfl he

/-- A word whose guard is false has no effect but its issue (R59). -/
theorem runWordIf_off {opc fn : Nat} {wh : Where} {legal : Issue → State → Bool} {hd : Head} {eff : Issue → State → Res} {s : State}
    (hw : wh.refuses (Issue.of s hd opc) = false) (hl : legal (Issue.of s hd opc) s = true)
    (hg : s.guard (Issue.of s hd opc) hd = false) :
    runWordIf opc fn wh legal hd eff s = .next (s.advance (Issue.of s hd opc)) := by
  simp [runWordIf, hw, hl, hg]

/-- A word where it may not stand is an illegal word (R117, R353). -/
theorem runWordIf_illegal {opc fn : Nat} {wh : Where} {legal : Issue → State → Bool} {hd : Head} {eff : Issue → State → Res} {s : State}
    (h : wh.refuses (Issue.of s hd opc) = true) :
    runWordIf opc fn wh legal hd eff s = .next (s.raise (illegalHere (Issue.of s hd opc) fn)) := by
  simp [runWordIf, h]

/-- What a word can do, in all: it is illegal where it stands, it is guarded off, or its effect is made, faults or holds. -/
theorem runWordIf_cases {opc fn : Nat} {wh : Where} {legal : Issue → State → Bool} {hd : Head} {eff : Issue → State → Res} {s t : State}
    (h : runWordIf opc fn wh legal hd eff s = .next t) :
    t = s.raise (illegalHere (Issue.of s hd opc) fn) ∨ t = s.advance (Issue.of s hd opc) ∨
      eff (Issue.of s hd opc) (s.advance (Issue.of s hd opc)) = .ok t ∨
      (∃ code eng st x0 x1, eff (Issue.of s hd opc) (s.advance (Issue.of s hd opc)) = .fault code eng st x0 x1 ∧
        t = s.raise ((Issue.of s hd opc).info code eng st x0 x1 false)) ∨
      (eff (Issue.of s hd opc) (s.advance (Issue.of s hd opc)) = .hold ∧
        t = s.raise ((Issue.of s hd opc).info 0x12 9 (statusOpc 3 opc 0) 0 0 false)) ∨ t = s.hold (Issue.of s hd opc) := by
  simp only [runWordIf] at h
  split at h
  · cases h; exact .inl rfl
  · split at h
    · cases h; exact .inr (.inl rfl)
    · split at h
      · next t' ht => cases h; exact .inr (.inr (.inl ht))
      · next code eng st x0 x1 hf => cases h; exact .inr (.inr (.inr (.inl ⟨code, eng, st, x0, x1, hf, rfl⟩)))
      · next hh =>
        split at h <;> cases h
        · exact .inr (.inr (.inr (.inr (.inl ⟨hh, rfl⟩))))
        · exact .inr (.inr (.inr (.inr (.inr rfl))))

/-- A word always answers a next state. -/
theorem runWordIf_next (opc fn : Nat) (wh : Where) (legal : Issue → State → Bool) (hd : Head) (eff : Issue → State → Res) (s : State) :
    ∃ t, runWordIf opc fn wh legal hd eff s = .next t := by
  simp only [runWordIf]
  split
  · exact ⟨_, rfl⟩
  · split
    · exact ⟨_, rfl⟩
    · split
      · exact ⟨_, rfl⟩
      · exact ⟨_, rfl⟩
      · split <;> exact ⟨_, rfl⟩

theorem runWord_next (opc fn : Nat) (wh : Where) (hd : Head) (eff : Issue → State → Res) (s : State) :
    ∃ t, runWord opc fn wh hd eff s = .next t := runWordIf_next opc fn wh _ hd eff s

end Sys2Proof.Machine
end

