-- ==== Sys2Proof/Laws/Words.lean ====
section
/-! SUPPORT. The circumstances in which a word issues, how a word that faults or is held ends, and what an issue leaves of the
state that the checks of a word look at; and small laws of scopes, copy checks and records. -/

namespace Sys2Proof.Machine

/-! ## The circumstances of an issue -/

@[simp] theorem Issue.of_t (s : State) (hd : Head) (opc : Nat) : (Issue.of s hd opc).t = s.ctime := by
  unfold Issue.of; dsimp only; split <;> rfl
@[simp] theorem Issue.of_trunk (s : State) (hd : Head) (opc : Nat) : (Issue.of s hd opc).trunk = s.trunk := by
  unfold Issue.of; dsimp only; split <;> rfl
@[simp] theorem Issue.of_idle (s : State) (hd : Head) (opc : Nat) : (Issue.of s hd opc).idle = hd.idle.toNat := by
  unfold Issue.of; dsimp only; split <;> rfl
@[simp] theorem Issue.of_opc (s : State) (hd : Head) (opc : Nat) : (Issue.of s hd opc).opc = opc := by
  unfold Issue.of; dsimp only; split <;> rfl
@[simp] theorem Issue.of_shadow (s : State) (hd : Head) (opc : Nat) : (Issue.of s hd opc).shadow = s.core.shadow.active := by
  unfold Issue.of; dsimp only; split <;> simp_all

/-- Outside the shadow context a word stands where its cluster stands. -/
theorem Issue.of_plain {s : State} (hd : Head) (opc : Nat) (h : s.core.shadow.active = false) :
    Issue.of s hd opc =
      let c := s.core.issuing.getD .S
      ⟨c, false, s.joined c, ⟨c, (s.core.cl c).sec, (s.core.cl c).word⟩, (s.core.cl c).hdr, s.ctime, s.trunk, hd.idle.toNat, opc
        , (s.core.cl c).wait = some .held⟩ := by
  simp [Issue.of, h]

/-- In the shadow context a word stands in the handler, as a word of S. -/
theorem Issue.of_shadowed {s : State} (hd : Head) (opc : Nat) (h : s.core.shadow.active = true) :
    Issue.of s hd opc =
      ⟨.S, true, false, ⟨.S, s.core.shadow.sec, s.core.shadow.word⟩, s.core.shadow.hdr, s.ctime, s.trunk, hd.idle.toNat, opc, false⟩ := by
  simp [Issue.of, h]

/-- A word that issues in a free section of the running core issues wherever its kind allows a free section. -/
theorem State.IssuesFree.issues {s : State} {hd : Head} {opc : Nat} (h : s.IssuesFree hd opc) (wh : Where) : s.Issues hd opc wh :=
  ⟨by simp [Where.refuses, h.1, h.2.1], h.2.2⟩

/-! ## How a word ends -/

/-- A word whose effect faults has had no effect (R347). -/
theorem runWordIf_fault {opc fn : Nat} {wh : Where} {legal : Issue → State → Bool} {hd : Head} {eff : Issue → State → Res} {s : State}
    {code eng : Nat} {st : BitVec 32} {x0 x1 : Word} (h : s.Issues hd opc wh) (hl : legal (Issue.of s hd opc) s = true)
    (he : eff (Issue.of s hd opc) (s.advance (Issue.of s hd opc)) = .fault code eng st x0 x1) :
    runWordIf opc fn wh legal hd eff s = .next (s.raise ((Issue.of s hd opc).info code eng st x0 x1 false)) := by
  simp [runWordIf, h.1, h.2, hl, he]

theorem runWord_fault {opc fn : Nat} {wh : Where} {hd : Head} {eff : Issue → State → Res} {s : State}
    {code eng : Nat} {st : BitVec 32} {x0 x1 : Word} (h : s.Issues hd opc wh)
    (he : eff (Issue.of s hd opc) (s.advance (Issue.of s hd opc)) = .fault code eng st x0 x1) :
    runWord opc fn wh hd eff s = .next (s.raise ((Issue.of s hd opc).info code eng st x0 x1 false)) := runWordIf_fault h rfl he

/-- A word that its context forbids is an illegal word. -/
theorem runWordIf_forbidden {opc fn : Nat} {wh : Where} {legal : Issue → State → Bool} {hd : Head} {eff : Issue → State → Res} {s : State}
    (h : legal (Issue.of s hd opc) s = false) :
    runWordIf opc fn wh legal hd eff s = .next (s.raise (illegalHere (Issue.of s hd opc) fn)) := by
  simp [runWordIf, h]

/-- A word of a free section that is held is tried again. -/
theorem runWordIf_hold {opc fn : Nat} {wh : Where} {legal : Issue → State → Bool} {hd : Head} {eff : Issue → State → Res} {s : State}
    (h : s.Issues hd opc wh) (hl : legal (Issue.of s hd opc) s = true) (hj : (Issue.of s hd opc).joined = false)
    (he : eff (Issue.of s hd opc) (s.advance (Issue.of s hd opc)) = .hold) :
    runWordIf opc fn wh legal hd eff s = .next (s.hold (Issue.of s hd opc)) := by
  simp [runWordIf, h.1, h.2, hl, he, hj]

/-! ## What an issue leaves -/

@[simp] theorem State.advance_ctime (s : State) (i : Issue) : (s.advance i).ctime = s.ctime := by
  simp [State.ctime]

@[simp] theorem State.advance_activePlane (s : State) (i : Issue) : (s.advance i).activePlane = s.activePlane := by
  simp [State.activePlane]

@[simp] theorem State.advance_shadow_active (s : State) (i : Issue) : (s.advance i).core.shadow.active = s.core.shadow.active := by
  unfold State.advance; split
  · rfl
  · simp

@[simp] theorem Core.ctx_advance (s : State) (i : Issue) : (s.advance i).core.ctx = s.core.ctx := by
  simp [Core.ctx]

@[simp] theorem State.readSys_advance (s : State) (i : Issue) (r : SysReg) : (s.advance i).readSys r = s.readSys r := by
  cases r <;> simp [State.readSys, Core.ftabReg]

@[simp] theorem State.readF32_advance (s : State) (i : Issue) (x : FSrc) : (s.advance i).readF32 i x = s.readF32 i x := by
  simp [State.readF32]

/-- Where the other clusters stand is the same after an issue. -/
theorem State.advance_cl_other (s : State) (i : Issue) {k : Cluster} (h : i.shadow = false) (hk : k ≠ i.c) :
    (s.advance i).core.cl k = s.core.cl k := by
  unfold State.advance
  simp only [h, Bool.false_eq_true, if_false]
  have e : ∀ x, ((s.core.setCl i.c x).cl k) = s.core.cl k := fun x => Core.cl_setCl_other _ _ hk
  cases k <;> simp only [Core.cl] at e ⊢ <;> rw [e]

@[simp] theorem State.replaying_advance (s : State) (i : Issue) : (s.advance i).replaying = s.replaying := by
  simp [State.replaying]

/-- A wait that no earlier pass has kept ends when its condition holds (R109, R370). -/
theorem State.mayEnd_free {s : State} {w : Outside} (h : s.waitKept w = none) : s.mayEnd w = true := by
  simp [State.mayEnd, h]

/-- One that ended the first time ends from that core cycle on (R370). -/
theorem State.mayEnd_kept {s : State} {w : Outside} {x : WaitKept} {t : Nat} (h : s.waitKept w = some x) (he : x.ended = some t) :
    s.mayEnd w = decide (t ≤ s.ctime) := by simp [State.mayEnd, h, he]

/-! ## What a scope covers, what a copy-in meets, and which record gains FINAL -/

/-- Pod scope covers every core of the package (R263). -/
theorem State.covers_package (s : State) {sc : BitVec 3} {y x : Nat} (hs : sc.toNat = 5) (hy : y < 192) (hx : x < 192) :
    s.covers sc y x = true := by simp [State.covers, hs, State.inPod, packageOf, hy, hx]

/-- A word that a locked line holds raises no SEQUENCE TAG (R174, R179). -/
theorem State.checkPlan_locked {s : State} {i : Issue} {e : Nat} {ps : List Planned} (h : s.core.planLocked ps = true)
    {k eng : Nat} {st : BitVec 32} (hc : s.checkPlan i e ps = some (k, eng, st)) : k ≠ 0x11 := by
  have no : (ps.findSome? fun p =>
      if p.write || s.core.planLocked ps then none else (s.core.tagFault p.addr.toNat p.len).map fun st => (p.kind, st)) = none := by
    simp [h]
  unfold State.checkPlan at hc
  rw [no] at hc
  split at hc
  · cases hc; decide
  · split at hc
    · cases hc; decide
    · simp only at hc
      split at hc
      · cases hc; decide
      · cases hc

/-- A page that is released has nothing of its marker outstanding (R207). -/
theorem State.releasable_clear {s : State} {p : Page} (h : s.releasable p = true) {m : Marker} (hm : m ∈ s.markers)
    (ht : m.tenant = p.tenant) (hv : m.va = p.va) :
    (∀ k ∈ m.copies, s.copyStands k = false) ∧ ∀ k ∈ m.patches, s.patchStands k = false := by
  simp only [State.releasable, Bool.and_eq_true, List.all_eq_true] at h
  have := h.2 m hm
  simp [ht, hv] at this
  exact ⟨fun k hk => this.1 k.1.1 k.1.2 k.2.1 k.2.2 hk, fun k hk => this.2 k.1.1 k.1.2 k.2.1 k.2.2 hk⟩

/-- Records other than the given one stay as they are (R353). -/
theorem markFinal_other {x : FRec} {rs : List FRec} (h : x ∉ rs) : markFinal x rs = rs := by
  conv => rhs; rw [← List.map_id rs]
  apply List.map_congr_left
  intro r hr
  have : r ≠ x := fun e => h (e ▸ hr)
  simp [this]

/-- A wait that is tried leaves the place in issue order as it was (R147). -/
theorem State.tryWait_seq {s t : State} {c : Cluster} {w : Wait} (h : s.tryWait c w = .ok t) : t.core.seq = s.core.seq := by
  unfold State.tryWait at h
  split at h
  · cases h; rfl
  · next hn => exact absurd h (hn t)

end Sys2Proof.Machine
end

