-- ==== Sys2Proof/Laws/Arms.lean ====
section
/-! SUPPORT. One equation per arm of `exec`: the meaning that it calls. -/

namespace Sys2Proof.Machine

@[simp] theorem exec_nop (hd : Head) (s : State) :
    exec (.nop hd) s = execNop hd s := rfl
@[simp] theorem exec_idle (hd : Head) (n : BitVec 16) (s : State) :
    exec (.idle hd n) s = execIdle hd n s := rfl
@[simp] theorem exec_br (hd : Head) (tgt : BitVec 12) (sec : BitVec 10) (s : State) :
    exec (.br hd tgt sec) s = execBr hd tgt sec s := rfl
@[simp] theorem exec_brx (hd : Head) (g : BitVec 5) (s : State) :
    exec (.brx hd g) s = execBrx hd g s := rfl
@[simp] theorem exec_call (hd : Head) (g : BitVec 5) (tgt : BitVec 12) (sec : BitVec 10) (s : State) :
    exec (.call hd g tgt sec) s = execCall hd g tgt sec s := rfl
@[simp] theorem exec_ret (hd : Head) (g : BitVec 5) (s : State) :
    exec (.ret hd g) s = execRet hd g s := rfl
@[simp] theorem exec_jsec (hd : Head) (t : SecRef) (s : State) :
    exec (.jsec hd t) s = execJsec hd t s := rfl
@[simp] theorem exec_jsecSteer (hd : Head) (c : Steered) (t : SecRef) (s : State) :
    exec (.jsecSteer hd c t) s = execJsecSteer hd c t s := rfl
@[simp] theorem exec_jsecPark (hd : Head) (c : Steered) (s : State) :
    exec (.jsecPark hd c) s = execJsecPark hd c s := rfl
@[simp] theorem exec_loop (hd : Head) (g : BitVec 5) (tgt : BitVec 12) (sec : BitVec 10) (s : State) :
    exec (.loop hd g tgt sec) s = execLoop hd g tgt sec s := rfl
@[simp] theorem exec_loopx (hd : Head) (k : BitVec 3) (e : BitVec 5) (step : BitVec 16) (tgt : BitVec 12) (sec : BitVec 10) (s : State) :
    exec (.loopx hd k e step tgt sec) s = execLoopx hd k e step tgt sec s := rfl
@[simp] theorem exec_waitt (hd : Head) (t : WaitTo) (s : State) :
    exec (.waitt hd t) s = execWaitt hd t s := rfl
@[simp] theorem exec_halt (hd : Head) (s : State) :
    exec (.halt hd) s = execHalt hd s := rfl
@[simp] theorem exec_quiet (hd : Head) (s : State) :
    exec (.quiet hd) s = execQuiet hd s := rfl
@[simp] theorem exec_yield (hd : Head) (s : State) :
    exec (.yield hd) s = execYield hd s := rfl
@[simp] theorem exec_time (hd : Head) (g : BitVec 5) (s : State) :
    exec (.time hd g) s = execTime hd g s := rfl
@[simp] theorem exec_trunk (hd : Head) (g : BitVec 5) (s : State) :
    exec (.trunk hd g) s = execTrunk hd g s := rfl
@[simp] theorem exec_trap (hd : Head) (n : BitVec 5) (s : State) :
    exec (.trap hd n) s = execTrap hd n s := rfl
@[simp] theorem exec_eret (hd : Head) (s : State) :
    exec (.eret hd) s = execEret hd s := rfl
@[simp] theorem exec_bkpt (hd : Head) (tag : BitVec 8) (s : State) :
    exec (.bkpt hd tag) s = execBkpt hd tag s := rfl
@[simp] theorem exec_mfs (hd : Head) (g : BitVec 5) (r : SysReg) (s : State) :
    exec (.mfs hd g r) s = execMfs hd g r s := rfl
@[simp] theorem exec_mts (hd : Head) (r : SysReg) (g : BitVec 5) (s : State) :
    exec (.mts hd r g) s = execMts hd r g s := rfl
@[simp] theorem exec_phdecl (hd : Head) (idx : BitVec 4) (base size : BitVec 14) (rd wr : BitVec 5) (db tag : Bool) (s : State) :
    exec (.phdecl hd idx base size rd wr db tag) s = execPhdecl hd idx base size rd wr db tag s := rfl
@[simp] theorem exec_phdeclClear (hd : Head) (idx : BitVec 4) (s : State) :
    exec (.phdeclClear hd idx) s = execPhdeclClear hd idx s := rfl
@[simp] theorem exec_phsw (hd : Head) (g : BitVec 5) (tag : BitVec 16) (s : State) :
    exec (.phsw hd g tag) s = execPhsw hd g tag s := rfl
@[simp] theorem exec_spill (hd : Head) (q : BitVec 4) (a : BitVec 4) (m : BitVec 3) (s : State) :
    exec (.spill hd q a m) s = execSpill hd q a m s := rfl
@[simp] theorem exec_fill (hd : Head) (q : BitVec 4) (m : BitVec 3) (keep : Bool) (s : State) :
    exec (.fill hd q m keep) s = execFill hd q m keep s := rfl
@[simp] theorem exec_fillDrop (hd : Head) (q : BitVec 4) (s : State) :
    exec (.fillDrop hd q) s = execFillDrop hd q s := rfl
@[simp] theorem exec_qwait (hd : Head) (q : BitVec 4) (s : State) :
    exec (.qwait hd q) s = execQwait hd q s := rfl
@[simp] theorem exec_qtest (hd : Head) (p : BitVec 5) (q : BitVec 4) (s : State) :
    exec (.qtest hd p q) s = execQtest hd p q s := rfl
@[simp] theorem exec_add (hd : Head) (d : BitVec 5) (s1 s2 : Src) (s : State) :
    exec (.add hd d s1 s2) s = execAdd hd d s1 s2 s := rfl
@[simp] theorem exec_sub (hd : Head) (d : BitVec 5) (s1 s2 : Src) (s : State) :
    exec (.sub hd d s1 s2) s = execSub hd d s1 s2 s := rfl
@[simp] theorem exec_mul (hd : Head) (d : BitVec 5) (s1 s2 : Src) (s : State) :
    exec (.mul hd d s1 s2) s = execMul hd d s1 s2 s := rfl
@[simp] theorem exec_mulh (hd : Head) (d : BitVec 5) (s1 s2 : Src) (s : State) :
    exec (.mulh hd d s1 s2) s = execMulh hd d s1 s2 s := rfl
@[simp] theorem exec_div (hd : Head) (d : BitVec 5) (s1 s2 : Src) (s : State) :
    exec (.div hd d s1 s2) s = execDiv hd d s1 s2 s := rfl
@[simp] theorem exec_rem (hd : Head) (d : BitVec 5) (s1 s2 : Src) (s : State) :
    exec (.rem hd d s1 s2) s = execRem hd d s1 s2 s := rfl
@[simp] theorem exec_and (hd : Head) (d : BitVec 5) (s1 s2 : Src) (s : State) :
    exec (.and hd d s1 s2) s = execAnd hd d s1 s2 s := rfl
@[simp] theorem exec_or (hd : Head) (d : BitVec 5) (s1 s2 : Src) (s : State) :
    exec (.or hd d s1 s2) s = execOr hd d s1 s2 s := rfl
@[simp] theorem exec_xor (hd : Head) (d : BitVec 5) (s1 s2 : Src) (s : State) :
    exec (.xor hd d s1 s2) s = execXor hd d s1 s2 s := rfl
@[simp] theorem exec_andn (hd : Head) (d : BitVec 5) (s1 s2 : Src) (s : State) :
    exec (.andn hd d s1 s2) s = execAndn hd d s1 s2 s := rfl
@[simp] theorem exec_shl (hd : Head) (d : BitVec 5) (s1 s2 : Src) (s : State) :
    exec (.shl hd d s1 s2) s = execShl hd d s1 s2 s := rfl
@[simp] theorem exec_shr (hd : Head) (d : BitVec 5) (s1 s2 : Src) (s : State) :
    exec (.shr hd d s1 s2) s = execShr hd d s1 s2 s := rfl
@[simp] theorem exec_sar (hd : Head) (d : BitVec 5) (s1 s2 : Src) (s : State) :
    exec (.sar hd d s1 s2) s = execSar hd d s1 s2 s := rfl
@[simp] theorem exec_rol (hd : Head) (d : BitVec 5) (s1 s2 : Src) (s : State) :
    exec (.rol hd d s1 s2) s = execRol hd d s1 s2 s := rfl
@[simp] theorem exec_min (hd : Head) (d : BitVec 5) (s1 s2 : Src) (s : State) :
    exec (.min hd d s1 s2) s = execMin hd d s1 s2 s := rfl
@[simp] theorem exec_max (hd : Head) (d : BitVec 5) (s1 s2 : Src) (s : State) :
    exec (.max hd d s1 s2) s = execMax hd d s1 s2 s := rfl
@[simp] theorem exec_addi (hd : Head) (d : BitVec 5) (s1 : Src) (imm : BitVec 56) (s : State) :
    exec (.addi hd d s1 imm) s = execAddi hd d s1 imm s := rfl
@[simp] theorem exec_andImm (hd : Head) (d : BitVec 5) (s1 : Src) (imm : BitVec 56) (s : State) :
    exec (.andImm hd d s1 imm) s = execAndImm hd d s1 imm s := rfl
@[simp] theorem exec_orImm (hd : Head) (d : BitVec 5) (s1 : Src) (imm : BitVec 56) (s : State) :
    exec (.orImm hd d s1 imm) s = execOrImm hd d s1 imm s := rfl
@[simp] theorem exec_xorImm (hd : Head) (d : BitVec 5) (s1 : Src) (imm : BitVec 56) (s : State) :
    exec (.xorImm hd d s1 imm) s = execXorImm hd d s1 imm s := rfl
@[simp] theorem exec_andnImm (hd : Head) (d : BitVec 5) (s1 : Src) (imm : BitVec 56) (s : State) :
    exec (.andnImm hd d s1 imm) s = execAndnImm hd d s1 imm s := rfl
@[simp] theorem exec_shlImm (hd : Head) (d : BitVec 5) (s1 : Src) (imm : BitVec 56) (s : State) :
    exec (.shlImm hd d s1 imm) s = execShlImm hd d s1 imm s := rfl
@[simp] theorem exec_shrImm (hd : Head) (d : BitVec 5) (s1 : Src) (imm : BitVec 56) (s : State) :
    exec (.shrImm hd d s1 imm) s = execShrImm hd d s1 imm s := rfl
@[simp] theorem exec_sarImm (hd : Head) (d : BitVec 5) (s1 : Src) (imm : BitVec 56) (s : State) :
    exec (.sarImm hd d s1 imm) s = execSarImm hd d s1 imm s := rfl
@[simp] theorem exec_rolImm (hd : Head) (d : BitVec 5) (s1 : Src) (imm : BitVec 56) (s : State) :
    exec (.rolImm hd d s1 imm) s = execRolImm hd d s1 imm s := rfl
@[simp] theorem exec_minImm (hd : Head) (d : BitVec 5) (s1 : Src) (imm : BitVec 56) (s : State) :
    exec (.minImm hd d s1 imm) s = execMinImm hd d s1 imm s := rfl
@[simp] theorem exec_maxImm (hd : Head) (d : BitVec 5) (s1 : Src) (imm : BitVec 56) (s : State) :
    exec (.maxImm hd d s1 imm) s = execMaxImm hd d s1 imm s := rfl
@[simp] theorem exec_clz (hd : Head) (d : BitVec 5) (s1 : Src) (s : State) :
    exec (.clz hd d s1) s = execClz hd d s1 s := rfl
@[simp] theorem exec_popc (hd : Head) (d : BitVec 5) (s1 : Src) (s : State) :
    exec (.popc hd d s1) s = execPopc hd d s1 s := rfl
@[simp] theorem exec_ldi (hd : Head) (d : BitVec 5) (imm : BitVec 56) (s : State) :
    exec (.ldi hd d imm) s = execLdi hd d imm s := rfl
@[simp] theorem exec_sel (hd : Head) (d : BitVec 5) (p : BitVec 5) (s2 s3 : Src) (s : State) :
    exec (.sel hd d p s2 s3) s = execSel hd d p s2 s3 s := rfl
@[simp] theorem exec_cmp (hd : Head) (p : BitVec 5) (s1 s2 : Src) (c : Cond) (s : State) :
    exec (.cmp hd p s1 s2 c) s = execCmp hd p s1 s2 c s := rfl
@[simp] theorem exec_fadds (hd : Head) (d : BitVec 5) (s1 s2 : FSrc) (s : State) :
    exec (.fadds hd d s1 s2) s = execFadds hd d s1 s2 s := rfl
@[simp] theorem exec_fmuls (hd : Head) (d : BitVec 5) (s1 s2 : FSrc) (s : State) :
    exec (.fmuls hd d s1 s2) s = execFmuls hd d s1 s2 s := rfl
@[simp] theorem exec_ffmas (hd : Head) (d : BitVec 5) (s1 s2 s3 : FSrc) (s : State) :
    exec (.ffmas hd d s1 s2 s3) s = execFfmas hd d s1 s2 s3 s := rfl
@[simp] theorem exec_fcmps (hd : Head) (p : BitVec 5) (s1 s2 : FSrc) (c : FCond) (s : State) :
    exec (.fcmps hd p s1 s2 c) s = execFcmps hd p s1 s2 c s := rfl
@[simp] theorem exec_fmins (hd : Head) (d : BitVec 5) (s1 s2 : FSrc) (s : State) :
    exec (.fmins hd d s1 s2) s = execFmins hd d s1 s2 s := rfl
@[simp] theorem exec_fmaxs (hd : Head) (d : BitVec 5) (s1 s2 : FSrc) (s : State) :
    exec (.fmaxs hd d s1 s2) s = execFmaxs hd d s1 s2 s := rfl
@[simp] theorem exec_lea (hd : Head) (a : BitVec 4) (s1 : LeaSrc) (imm : BitVec 56) (s : State) :
    exec (.lea hd a s1 imm) s = execLea hd a s1 imm s := rfl
@[simp] theorem exec_ainc (hd : Head) (a : BitVec 4) (imm : BitVec 56) (s : State) :
    exec (.ainc hd a imm) s = execAinc hd a imm s := rfl
@[simp] theorem exec_movy (hd : Head) (op : MovYOp) (s : State) :
    exec (.movy hd op) s = execMovy hd op s := rfl
@[simp] theorem exec_movk (hd : Head) (op : MovKOp) (s : State) :
    exec (.movk hd op) s = execMovk hd op s := rfl
@[simp] theorem exec_pgand (hd : Head) (d a b : BitVec 5) (s : State) :
    exec (.pgand hd d a b) s = execPgand hd d a b s := rfl
@[simp] theorem exec_pgor (hd : Head) (d a b : BitVec 5) (s : State) :
    exec (.pgor hd d a b) s = execPgor hd d a b s := rfl
@[simp] theorem exec_pgxor (hd : Head) (d a b : BitVec 5) (s : State) :
    exec (.pgxor hd d a b) s = execPgxor hd d a b s := rfl
@[simp] theorem exec_pgnot (hd : Head) (d a : BitVec 5) (s : State) :
    exec (.pgnot hd d a) s = execPgnot hd d a s := rfl
@[simp] theorem exec_pgmov (hd : Head) (d : BitVec 5) (src : PgSrc) (s : State) :
    exec (.pgmov hd d src) s = execPgmov hd d src s := rfl
@[simp] theorem exec_lds (hd : Head) (g : BitVec 5) (a : BitVec 4) (sz : BitVec 2) (sx : Bool) (off : BitVec 32) (s : State) :
    exec (.lds hd g a sz sx off) s = execLds hd g a sz sx off s := rfl
@[simp] theorem exec_sts (hd : Head) (g : BitVec 5) (a : BitVec 4) (sz : BitVec 2) (off : BitVec 32) (s : State) :
    exec (.sts hd g a sz off) s = execSts hd g a sz off s := rfl
@[simp] theorem exec_ldsx (hd : Head) (g : BitVec 5) (a : BitVec 4) (gi : BitVec 5) (sz : BitVec 2) (sx sc : Bool) (s : State) :
    exec (.ldsx hd g a gi sz sx sc) s = execLdsx hd g a gi sz sx sc s := rfl
@[simp] theorem exec_stsx (hd : Head) (g : BitVec 5) (a : BitVec 4) (gi : BitVec 5) (sz : BitVec 2) (sc : Bool) (s : State) :
    exec (.stsx hd g a gi sz sc) s = execStsx hd g a gi sz sc s := rfl
@[simp] theorem exec_mma (hd : Head) (acc : BitVec 6) (o : ProdOps) (s : State) :
    exec (.mma hd acc o) s = execMma hd acc o s := rfl
@[simp] theorem exec_mmas (hd : Head) (acc : BitVec 6) (o : ProdOps) (s : State) :
    exec (.mmas hd acc o) s = execMmas hd acc o s := rfl
@[simp] theorem exec_mmac (hd : Head) (m : BitVec 3) (o : ProdOps) (s : State) :
    exec (.mmac hd m o) s = execMmac hd m o s := rfl
@[simp] theorem exec_mld (hd : Head) (m : BitVec 3) (a : BitVec 4) (part : MPart) (s : State) :
    exec (.mld hd m a part) s = execMld hd m a part s := rfl
@[simp] theorem exec_mst (hd : Head) (m : BitVec 3) (a : BitVec 4) (part : MPart) (s : State) :
    exec (.mst hd m a part) s = execMst hd m a part s := rfl
@[simp] theorem exec_mmov (hd : Head) (d src : BitVec 3) (part : MPart) (s : State) :
    exec (.mmov hd d src part) s = execMmov hd d src part s := rfl
@[simp] theorem exec_mzero (hd : Head) (m : BitVec 3) (part : MPart) (s : State) :
    exec (.mzero hd m part) s = execMzero hd m part s := rfl
@[simp] theorem exec_mdrain (hd : Head) (acc : BitVec 6) (a : BitVec 4) (mcode ncode : BitVec 3) (first : BitVec 6) (grp : BitVec 2) (s : State) :
    exec (.mdrain hd acc a mcode ncode first grp) s = execMdrain hd acc a mcode ncode first grp s := rfl
@[simp] theorem exec_mchk (hd : Head) (d : MDest) (nxt : Bool) (s : State) :
    exec (.mchk hd d nxt) s = execMchk hd d nxt s := rfl
@[simp] theorem exec_mloc (hd : Head) (d : MDest) (g : BitVec 5) (s : State) :
    exec (.mloc hd d g) s = execMloc hd d g s := rfl
@[simp] theorem exec_mfix (hd : Head) (d : MDest) (g : BitVec 5) (s : State) :
    exec (.mfix hd d g) s = execMfix hd d g s := rfl
@[simp] theorem exec_mretry (hd : Head) (d : MDest) (s : State) :
    exec (.mretry hd d) s = execMretry hd d s := rfl
@[simp] theorem exec_mtols (hd : Head) (a : BitVec 4) (s : State) :
    exec (.mtols hd a) s = execMtols hd a s := rfl
@[simp] theorem exec_acalloc (hd : Head) (acc : BitVec 6) (zero : Bool) (count1 : BitVec 6) (s : State) :
    exec (.acalloc hd acc zero count1) s = execAcalloc hd acc zero count1 s := rfl
@[simp] theorem exec_acfree (hd : Head) (acc : BitVec 6) (count1 : BitVec 6) (s : State) :
    exec (.acfree hd acc count1) s = execAcfree hd acc count1 s := rfl
@[simp] theorem exec_acband (hd : Head) (acc : BitVec 6) (owners : BitVec 8) (s : State) :
    exec (.acband hd acc owners) s = execAcband hd acc owners s := rfl
@[simp] theorem exec_acrd (hd : Head) (acc : BitVec 6) (a : BitVec 4) (mcode ncode : BitVec 3) (first : BitVec 6) (grp : BitVec 2) (s : State) :
    exec (.acrd hd acc a mcode ncode first grp) s = execAcrd hd acc a mcode ncode first grp s := rfl
@[simp] theorem exec_acwr (hd : Head) (acc : BitVec 6) (a : BitVec 4) (mcode ncode : BitVec 3) (first : BitVec 6) (s : State) :
    exec (.acwr hd acc a mcode ncode first) s = execAcwr hd acc a mcode ncode first s := rfl
@[simp] theorem exec_aczero (hd : Head) (acc : BitVec 6) (mcode ncode : BitVec 3) (first : BitVec 6) (s : State) :
    exec (.aczero hd acc mcode ncode first) s = execAczero hd acc mcode ncode first s := rfl
@[simp] theorem exec_scld (hd : Head) (a : BitVec 4) (kcode : BitVec 6) (off : BitVec 8) (s : State) :
    exec (.scld hd a kcode off) s = execScld hd a kcode off s := rfl
@[simp] theorem exec_vadd (hd : Head) (v : VOps) (s : State) :
    exec (.vadd hd v) s = execVadd hd v s := rfl
@[simp] theorem exec_vsub (hd : Head) (v : VOps) (s : State) :
    exec (.vsub hd v) s = execVsub hd v s := rfl
@[simp] theorem exec_vmul (hd : Head) (v : VOps) (s : State) :
    exec (.vmul hd v) s = execVmul hd v s := rfl
@[simp] theorem exec_vfma (hd : Head) (v : VOps) (s : State) :
    exec (.vfma hd v) s = execVfma hd v s := rfl
@[simp] theorem exec_vmax (hd : Head) (v : VOps) (s : State) :
    exec (.vmax hd v) s = execVmax hd v s := rfl
@[simp] theorem exec_vmin (hd : Head) (v : VOps) (s : State) :
    exec (.vmin hd v) s = execVmin hd v s := rfl
@[simp] theorem exec_vabs (hd : Head) (v : VOps) (s : State) :
    exec (.vabs hd v) s = execVabs hd v s := rfl
@[simp] theorem exec_vneg (hd : Head) (v : VOps) (s : State) :
    exec (.vneg hd v) s = execVneg hd v s := rfl
@[simp] theorem exec_vclamp (hd : Head) (v : VOps) (s : State) :
    exec (.vclamp hd v) s = execVclamp hd v s := rfl
@[simp] theorem exec_vrcp (hd : Head) (v : VOps) (s : State) :
    exec (.vrcp hd v) s = execVrcp hd v s := rfl
@[simp] theorem exec_vrsqrt (hd : Head) (v : VOps) (s : State) :
    exec (.vrsqrt hd v) s = execVrsqrt hd v s := rfl
@[simp] theorem exec_vsqrt (hd : Head) (v : VOps) (s : State) :
    exec (.vsqrt hd v) s = execVsqrt hd v s := rfl
@[simp] theorem exec_vexp2 (hd : Head) (v : VOps) (s : State) :
    exec (.vexp2 hd v) s = execVexp2 hd v s := rfl
@[simp] theorem exec_vlog2 (hd : Head) (v : VOps) (s : State) :
    exec (.vlog2 hd v) s = execVlog2 hd v s := rfl
@[simp] theorem exec_vtanh (hd : Head) (v : VOps) (s : State) :
    exec (.vtanh hd v) s = execVtanh hd v s := rfl
@[simp] theorem exec_vrsum (hd : Head) (v : VOps) (s : State) :
    exec (.vrsum hd v) s = execVrsum hd v s := rfl
@[simp] theorem exec_vrmax (hd : Head) (v : VOps) (s : State) :
    exec (.vrmax hd v) s = execVrmax hd v s := rfl
@[simp] theorem exec_vrmin (hd : Head) (v : VOps) (s : State) :
    exec (.vrmin hd v) s = execVrmin hd v s := rfl
@[simp] theorem exec_vscan (hd : Head) (v : VOps) (s : State) :
    exec (.vscan hd v) s = execVscan hd v s := rfl
@[simp] theorem exec_vcmp (hd : Head) (v : VOps) (s : State) :
    exec (.vcmp hd v) s = execVcmp hd v s := rfl
@[simp] theorem exec_vsel (hd : Head) (v : VOps) (s : State) :
    exec (.vsel hd v) s = execVsel hd v s := rfl
@[simp] theorem exec_vcompact (hd : Head) (v : VOps) (s : State) :
    exec (.vcompact hd v) s = execVcompact hd v s := rfl
@[simp] theorem exec_viota (hd : Head) (v : VOps) (s : State) :
    exec (.viota hd v) s = execViota hd v s := rfl
@[simp] theorem exec_vtopk (hd : Head) (v : VOps) (s : State) :
    exec (.vtopk hd v) s = execVtopk hd v s := rfl
@[simp] theorem exec_vgather (hd : Head) (v : VOps) (s : State) :
    exec (.vgather hd v) s = execVgather hd v s := rfl
@[simp] theorem exec_vbcast (hd : Head) (v : VOps) (s : State) :
    exec (.vbcast hd v) s = execVbcast hd v s := rfl
@[simp] theorem exec_vmov (hd : Head) (v : VOps) (s : State) :
    exec (.vmov hd v) s = execVmov hd v s := rfl
@[simp] theorem exec_vand (hd : Head) (v : VOps) (s : State) :
    exec (.vand hd v) s = execVand hd v s := rfl
@[simp] theorem exec_vor (hd : Head) (v : VOps) (s : State) :
    exec (.vor hd v) s = execVor hd v s := rfl
@[simp] theorem exec_vxor (hd : Head) (v : VOps) (s : State) :
    exec (.vxor hd v) s = execVxor hd v s := rfl
@[simp] theorem exec_vshl (hd : Head) (v : VOps) (s : State) :
    exec (.vshl hd v) s = execVshl hd v s := rfl
@[simp] theorem exec_vshr (hd : Head) (v : VOps) (s : State) :
    exec (.vshr hd v) s = execVshr hd v s := rfl
@[simp] theorem exec_vrand (hd : Head) (v : VOps) (s : State) :
    exec (.vrand hd v) s = execVrand hd v s := rfl
@[simp] theorem exec_vcbx (hd : Head) (v : VOps) (s : State) :
    exec (.vcbx hd v) s = execVcbx hd v s := rfl
@[simp] theorem exec_cbld (hd : Head) (bank : BitVec 2) (a : BitVec 4) (count1 : BitVec 8) (ebytes1 : BitVec 7) (s : State) :
    exec (.cbld hd bank a count1 ebytes1) s = execCbld hd bank a count1 ebytes1 s := rfl
@[simp] theorem exec_cbwait (hd : Head) (bank : BitVec 2) (s : State) :
    exec (.cbwait hd bank) s = execCbwait hd bank s := rfl
@[simp] theorem exec_cbsave (hd : Head) (bank : BitVec 2) (a : BitVec 4) (s : State) :
    exec (.cbsave hd bank a) s = execCbsave hd bank a s := rfl
@[simp] theorem exec_cbrest (hd : Head) (bank : BitVec 2) (s : State) :
    exec (.cbrest hd bank) s = execCbrest hd bank s := rfl
@[simp] theorem exec_cbchk (hd : Head) (p : BitVec 5) (bank : BitVec 2) (s : State) :
    exec (.cbchk hd p bank) s = execCbchk hd p bank s := rfl
@[simp] theorem exec_ftset (hd : Head) (n : BitVec 4) (g : BitVec 5) (s : State) :
    exec (.ftset hd n g) s = execFtset hd n g s := rfl
@[simp] theorem exec_cpin (hd : Head) (o : CopyOps) (s : State) :
    exec (.cpin hd o) s = execCpin hd o s := rfl
@[simp] theorem exec_cpin2 (hd : Head) (o : CopyOps) (pitch : BitVec 12) (rowlines1 : BitVec 8) (s : State) :
    exec (.cpin2 hd o pitch rowlines1) s = execCpin2 hd o pitch rowlines1 s := rfl
@[simp] theorem exec_gather (hd : Head) (o : CopyOps) (list : BitVec 4) (rowlines1 : BitVec 8) (s : State) :
    exec (.gather hd o list rowlines1) s = execGather hd o list rowlines1 s := rfl
@[simp] theorem exec_pfetch (hd : Head) (h : BitVec 5) (goff : BitVec 5) (units : BitVec 12) (tok : BitVec 4) (s : State) :
    exec (.pfetch hd h goff units tok) s = execPfetch hd h goff units tok s := rfl
@[simp] theorem exec_pfwait (hd : Head) (g : BitVec 5) (tok : BitVec 4) (s : State) :
    exec (.pfwait hd g tok) s = execPfwait hd g tok s := rfl
@[simp] theorem exec_pfpin (hd : Head) (h : BitVec 5) (goff : BitVec 5) (units : BitVec 12) (tok : BitVec 4) (s : State) :
    exec (.pfpin hd h goff units tok) s = execPfpin hd h goff units tok s := rfl
@[simp] theorem exec_pfunpin (hd : Head) (h : BitVec 5) (goff : BitVec 5) (units : BitVec 12) (s : State) :
    exec (.pfunpin hd h goff units) s = execPfunpin hd h goff units s := rfl
@[simp] theorem exec_discard (hd : Head) (h : BitVec 5) (goff : BitVec 5) (units : BitVec 12) (tok : BitVec 4) (s : State) :
    exec (.discard hd h goff units tok) s = execDiscard hd h goff units tok s := rfl
@[simp] theorem exec_slotrdEntry (hd : Head) (g : BitVec 5) (group : BitVec 4) (slot : BitVec 10) (s : State) :
    exec (.slotrdEntry hd g group slot) s = execSlotrdEntry hd g group slot s := rfl
@[simp] theorem exec_slotrdGap (hd : Head) (g : BitVec 5) (group : BitVec 4) (s : State) :
    exec (.slotrdGap hd g group) s = execSlotrdGap hd g group s := rfl
@[simp] theorem exec_slotrdLat (hd : Head) (g : BitVec 5) (s : State) :
    exec (.slotrdLat hd g) s = execSlotrdLat hd g s := rfl
@[simp] theorem exec_xlate (hd : Head) (h : BitVec 5) (g : BitVec 5) (s : State) :
    exec (.xlate hd h g) s = execXlate hd h g s := rfl
@[simp] theorem exec_hdrop (hd : Head) (h : BitVec 5) (s : State) :
    exec (.hdrop hd h) s = execHdrop hd h s := rfl
@[simp] theorem exec_htest (hd : Head) (g : BitVec 5) (h : BitVec 5) (s : State) :
    exec (.htest hd g h) s = execHtest hd g h s := rfl
@[simp] theorem exec_hmov (hd : Head) (d src : BitVec 5) (s : State) :
    exec (.hmov hd d src) s = execHmov hd d src s := rfl
@[simp] theorem exec_pst (hd : Head) (o : PatchOps) (s : State) :
    exec (.pst hd o) s = execPst hd o s := rfl
@[simp] theorem exec_padd (hd : Head) (o : PatchOps) (sat : Bool) (s : State) :
    exec (.padd hd o sat) s = execPadd hd o sat s := rfl
@[simp] theorem exec_pmax (hd : Head) (o : PatchOps) (s : State) :
    exec (.pmax hd o) s = execPmax hd o s := rfl
@[simp] theorem exec_pmin (hd : Head) (o : PatchOps) (s : State) :
    exec (.pmin hd o) s = execPmin hd o s := rfl
@[simp] theorem exec_pxor (hd : Head) (o : PatchOps) (s : State) :
    exec (.pxor hd o) s = execPxor hd o s := rfl
@[simp] theorem exec_por (hd : Head) (o : PatchOps) (s : State) :
    exec (.por hd o) s = execPor hd o s := rfl
@[simp] theorem exec_pand (hd : Head) (o : PatchOps) (s : State) :
    exec (.pand hd o) s = execPand hd o s := rfl
@[simp] theorem exec_pinv (hd : Head) (h : BitVec 5) (name : BitVec 5) (s : State) :
    exec (.pinv hd h name) s = execPinv hd h name s := rfl
@[simp] theorem exec_pdrop (hd : Head) (p : BitVec 5) (h : BitVec 5) (name : BitVec 5) (s : State) :
    exec (.pdrop hd p h name) s = execPdrop hd p h name s := rfl
@[simp] theorem exec_pcomm (hd : Head) (p : BitVec 5) (h : BitVec 5) (na nb : BitVec 5) (s : State) :
    exec (.pcomm hd p h na nb) s = execPcomm hd p h na nb s := rfl
@[simp] theorem exec_pxpl (hd : Head) (h : BitVec 5) (goff : BitVec 5) (name : BitVec 5) (src : BitVec 5) (s : State) :
    exec (.pxpl hd h goff name src) s = execPxpl hd h goff name src s := rfl
@[simp] theorem exec_psq (hd : Head) (h : BitVec 5) (s : State) :
    exec (.psq hd h) s = execPsq hd h s := rfl
@[simp] theorem exec_pmrg (hd : Head) (p : BitVec 5) (h : BitVec 5) (na nb : BitVec 5) (s : State) :
    exec (.pmrg hd p h na nb) s = execPmrg hd p h na nb s := rfl
@[simp] theorem exec_ppub (hd : Head) (scope : BitVec 3) (s : State) :
    exec (.ppub hd scope) s = execPpub hd scope s := rfl
@[simp] theorem exec_pwait (hd : Head) (s : State) :
    exec (.pwait hd) s = execPwait hd s := rfl
@[simp] theorem exec_pname (hd : Head) (g : BitVec 5) (s : State) :
    exec (.pname hd g) s = execPname hd g s := rfl
@[simp] theorem exec_psnapOn (hd : Head) (h : BitVec 5) (s : State) :
    exec (.psnapOn hd h) s = execPsnapOn hd h s := rfl
@[simp] theorem exec_psnapOff (hd : Head) (h : BitVec 5) (s : State) :
    exec (.psnapOff hd h) s = execPsnapOff hd h s := rfl
@[simp] theorem exec_fenceAcq (hd : Head) (scope : BitVec 3) (s : State) :
    exec (.fenceAcq hd scope) s = execFenceAcq hd scope s := rfl
@[simp] theorem exec_fenceRel (hd : Head) (scope : BitVec 3) (s : State) :
    exec (.fenceRel hd scope) s = execFenceRel hd scope s := rfl
@[simp] theorem exec_fenceAcqrel (hd : Head) (scope : BitVec 3) (s : State) :
    exec (.fenceAcqrel hd scope) s = execFenceAcqrel hd scope s := rfl
@[simp] theorem exec_fset (hd : Head) (f : BitVec 8) (v : FVal) (o : FOrd) (s : State) :
    exec (.fset hd f v o) s = execFset hd f v o s := rfl
@[simp] theorem exec_fadd (hd : Head) (g : BitVec 5) (f : BitVec 8) (v : FVal) (o : FOrd) (s : State) :
    exec (.fadd hd g f v o) s = execFadd hd g f v o s := rfl
@[simp] theorem exec_fwait (hd : Head) (g : BitVec 5) (f : BitVec 8) (v : FVal) (o : FOrd) (s : State) :
    exec (.fwait hd g f v o) s = execFwait hd g f v o s := rfl
@[simp] theorem exec_fget (hd : Head) (g : BitVec 5) (f : BitVec 8) (o : FOrd) (s : State) :
    exec (.fget hd g f o) s = execFget hd g f o s := rfl
@[simp] theorem exec_bara (hd : Head) (b : BitVec 4) (scope : BitVec 3) (s : State) :
    exec (.bara hd b scope) s = execBara hd b scope s := rfl
@[simp] theorem exec_barw (hd : Head) (g : BitVec 5) (b : BitVec 4) (v : FVal) (scope : BitVec 3) (s : State) :
    exec (.barw hd g b v scope) s = execBarw hd g b v scope s := rfl
@[simp] theorem exec_kick (hd : Head) (g : BitVec 5) (a : BitVec 4) (crit : Bool) (s : State) :
    exec (.kick hd g a crit) s = execKick hd g a crit s := rfl
@[simp] theorem exec_kwait (hd : Head) (g : BitVec 5) (s : State) :
    exec (.kwait hd g) s = execKwait hd g s := rfl
@[simp] theorem exec_swap (hd : Head) (g : BitVec 5) (s : State) :
    exec (.swap hd g) s = execSwap hd g s := rfl
@[simp] theorem exec_taskend (hd : Head) (s : State) :
    exec (.taskend hd) s = execTaskend hd s := rfl
@[simp] theorem exec_cvt (hd : Head) (d : BitVec 5) (src : FSrc) (sat : Bool) (sf df : BitVec 5) (mode : BitVec 4) (s : State) :
    exec (.cvt hd d src sat sf df mode) s = execCvt hd d src sat sf df mode s := rfl
@[simp] theorem exec_fclass (hd : Head) (d : BitVec 5) (src : FSrc) (fmt : BitVec 5) (s : State) :
    exec (.fclass hd d src fmt) s = execFclass hd d src fmt s := rfl
@[simp] theorem exec_vcvt (hd : Head) (v : VOps) (s : State) :
    exec (.vcvt hd v) s = execVcvt hd v s := rfl
@[simp] theorem exec_vquant (hd : Head) (v : VOps) (s : State) :
    exec (.vquant hd v) s = execVquant hd v s := rfl
@[simp] theorem exec_vdeq (hd : Head) (v : VOps) (s : State) :
    exec (.vdeq hd v) s = execVdeq hd v s := rfl
@[simp] theorem exec_vbscl (hd : Head) (v : VOps) (s : State) :
    exec (.vbscl hd v) s = execVbscl hd v s := rfl
@[simp] theorem exec_vpack (hd : Head) (v : VOps) (s : State) :
    exec (.vpack hd v) s = execVpack hd v s := rfl
@[simp] theorem exec_vunpack (hd : Head) (v : VOps) (s : State) :
    exec (.vunpack hd v) s = execVunpack hd v s := rfl
@[simp] theorem exec_chkerr (hd : Head) (g : BitVec 5) (clr : Bool) (s : State) :
    exec (.chkerr hd g clr) s = execChkerr hd g clr s := rfl
@[simp] theorem exec_idleExpiry (c : Cluster) (s : State) :
    exec (.idleExpiry c) s = execIdleExpiry c s := rfl
@[simp] theorem exec_waitConditionMet (c : Cluster) (s : State) :
    exec (.waitConditionMet c) s = execWaitConditionMet c s := rfl
@[simp] theorem exec_sectionFallThrough (c : Cluster) (s : State) :
    exec (.sectionFallThrough c) s = execSectionFallThrough c s := rfl
@[simp] theorem exec_entryWaitMet (c : Cluster) (s : State) :
    exec (.entryWaitMet c) s = execEntryWaitMet c s := rfl
@[simp] theorem exec_revocationMarker (tenant : BitVec 4) (va : Nat) (s : State) :
    exec (.revocationMarker tenant va) s = execRevocationMarker tenant va s := rfl
@[simp] theorem exec_pageRelease (tenant : BitVec 4) (va : Nat) (s : State) :
    exec (.pageRelease tenant va) s = execPageRelease tenant va s := rfl
@[simp] theorem exec_drawerUnitArrival (id unit : Nat) (s : State) :
    exec (.drawerUnitArrival id unit) s = execDrawerUnitArrival id unit s := rfl
@[simp] theorem exec_linkRetrainComplete (group : BitVec 4) (s : State) :
    exec (.linkRetrainComplete group) s = execLinkRetrainComplete group s := rfl
@[simp] theorem exec_linkGroupDown (group : BitVec 4) (s : State) :
    exec (.linkGroupDown group) s = execLinkGroupDown group s := rfl
@[simp] theorem exec_copyInCompletion (id : Nat) (s : State) :
    exec (.copyInCompletion id) s = execCopyInCompletion id s := rfl
@[simp] theorem exec_prefetchDone (tok : BitVec 4) (s : State) :
    exec (.prefetchDone tok) s = execPrefetchDone tok s := rfl
@[simp] theorem exec_patchArrival (id : Nat) (s : State) :
    exec (.patchArrival id) s = execPatchArrival id s := rfl
@[simp] theorem exec_patchReoffer (id : Nat) (s : State) :
    exec (.patchReoffer id) s = execPatchReoffer id s := rfl
@[simp] theorem exec_patchAnswer (id : Nat) (s : State) :
    exec (.patchAnswer id) s = execPatchAnswer id s := rfl
@[simp] theorem exec_sealLineUpdate (tenant : BitVec 4) (peer : Option (PacketHead × SealReport)) (s : State) :
    exec (.sealLineUpdate tenant peer) s = execSealLineUpdate tenant peer s := rfl
@[simp] theorem exec_operationPacketArrival (p : Packet) (s : State) :
    exec (.operationPacketArrival p) s = execOperationPacketArrival p s := rfl
@[simp] theorem exec_sourceCloseExpiry (source : BitVec 4 × BitVec 10) (s : State) :
    exec (.sourceCloseExpiry source) s = execSourceCloseExpiry source s := rfl
@[simp] theorem exec_podReleaseAck (head : PacketHead) (id : Nat) (s : State) :
    exec (.podReleaseAck head id) s = execPodReleaseAck head id s := rfl
@[simp] theorem exec_releaseComplete (id : Nat) (s : State) :
    exec (.releaseComplete id) s = execReleaseComplete id s := rfl
@[simp] theorem exec_checkpointCopyAdvance (tid : BitVec 24) (s : State) :
    exec (.checkpointCopyAdvance tid) s = execCheckpointCopyAdvance tid s := rfl
@[simp] theorem exec_asyncEventArrival (e : AsyncEvent) (s : State) :
    exec (.asyncEventArrival e) s = execAsyncEventArrival e s := rfl
@[simp] theorem exec_throttleBubble (n : Nat) (s : State) :
    exec (.throttleBubble n) s = execThrottleBubble n s := rfl
@[simp] theorem exec_submitLaunch (tenant : BitVec 4) (seq : BitVec 32) (l : LaunchReq) (s : State) :
    exec (.submitLaunch tenant seq l) s = execSubmitLaunch tenant seq l s := rfl
@[simp] theorem exec_cancelLaunch (tenant : BitVec 4) (seq : BitVec 32) (id : Nat) (s : State) :
    exec (.cancelLaunch tenant seq id) s = execCancelLaunch tenant seq id s := rfl
@[simp] theorem exec_takeCheckpoint (tenant : BitVec 4) (seq : BitVec 32) (tids : List (BitVec 24)) (s : State) :
    exec (.takeCheckpoint tenant seq tids) s = execTakeCheckpoint tenant seq tids s := rfl
@[simp] theorem exec_loadCheckpoint (tenant : BitVec 4) (seq : BitVec 32) (c : Checkpoint) (s : State) :
    exec (.loadCheckpoint tenant seq c) s = execLoadCheckpoint tenant seq c s := rfl
@[simp] theorem exec_attestation (tenant : BitVec 4) (seq : Option (BitVec 32)) (nonce : BitVec 256) (s : State) :
    exec (.attestation tenant seq nonce) s = execAttestation tenant seq nonce s := rfl
@[simp] theorem exec_debuggerAttach (tenant : BitVec 4) (seq : Option (BitVec 32)) (on : Bool) (s : State) :
    exec (.debuggerAttach tenant seq on) s = execDebuggerAttach tenant seq on s := rfl
@[simp] theorem exec_replayCompletions (tenant : BitVec 4) (seq : BitVec 32) (start : BitVec 32) (s : State) :
    exec (.replayCompletions tenant seq start) s = execReplayCompletions tenant seq start s := rfl
@[simp] theorem exec_doorbell (tenant : BitVec 4) (es : List SubEntry) (s : State) :
    exec (.doorbell tenant es) s = execDoorbell tenant es s := rfl
@[simp] theorem exec_hiverWrite (hmaj hmin : BitVec 4) (s : State) :
    exec (.hiverWrite hmaj hmin) s = execHiverWrite hmaj hmin s := rfl
@[simp] theorem exec_flagFileGrant (launch : Nat) (s : State) :
    exec (.flagFileGrant launch) s = execFlagFileGrant launch s := rfl
@[simp] theorem exec_flagFileSave (launch : Nat) (s : State) :
    exec (.flagFileSave launch) s = execFlagFileSave launch s := rfl
@[simp] theorem exec_walkPointReached (launch record : Nat) (s : State) :
    exec (.walkPointReached launch record) s = execWalkPointReached launch record s := rfl
@[simp] theorem exec_taskDispatch (launch : Nat) (ix : Nat) (core : Nat) (s : State) :
    exec (.taskDispatch launch ix core) s = execTaskDispatch launch ix core s := rfl
@[simp] theorem exec_contextRestore (slot : Nat) (s : State) :
    exec (.contextRestore slot) s = execContextRestore slot s := rfl
@[simp] theorem exec_taskRetirement (tenant : BitVec 4) (ix : Nat) (s : State) :
    exec (.taskRetirement tenant ix) s = execTaskRetirement tenant ix s := rfl
@[simp] theorem exec_strikeReport (zone : Nat) (s : State) :
    exec (.strikeReport zone) s = execStrikeReport zone s := rfl
@[simp] theorem exec_eccUncorrectable (u : PoisonUnit) (s : State) :
    exec (.eccUncorrectable u) s = execEccUncorrectable u s := rfl
@[simp] theorem exec_debugStep (n : BitVec 16) (s : State) :
    exec (.debugStep n) s = execDebugStep n s := rfl
@[simp] theorem exec_debugWriteState (w : DebugWrite) (s : State) :
    exec (.debugWriteState w) s = execDebugWriteState w s := rfl
@[simp] theorem exec_hostWake (flash : BootFlash) (s : State) :
    exec (.hostWake flash) s = execHostWake flash s := rfl
@[simp] theorem exec_ualinkTraining (station : BitVec 4) (t : Training) (s : State) :
    exec (.ualinkTraining station t) s = execUalinkTraining station t s := rfl
@[simp] theorem exec_ualinkLinkDown (station : BitVec 4) (s : State) :
    exec (.ualinkLinkDown station) s = execUalinkLinkDown station s := rfl
@[simp] theorem exec_tenantJoin (station : BitVec 4) (c : Joining) (s : State) :
    exec (.tenantJoin station c) s = execTenantJoin station c s := rfl
@[simp] theorem exec_tenantTeardown (tenant : BitVec 4) (s : State) :
    exec (.tenantTeardown tenant) s = execTenantTeardown tenant s := rfl
@[simp] theorem exec_tenantCreation (tenant : BitVec 4) (subQ compQ faultQ : Nat × Nat) (pages : List Page) (s : State) :
    exec (.tenantCreation tenant subQ compQ faultQ pages) s = execTenantCreation tenant subQ compQ faultQ pages s := rfl
@[simp] theorem exec_linkGroupRetrain (group : BitVec 4) (s : State) :
    exec (.linkGroupRetrain group) s = execLinkGroupRetrain group s := rfl
@[simp] theorem exec_firmwareUpdate (flash : BootFlash) (s : State) :
    exec (.firmwareUpdate flash) s = execFirmwareUpdate flash s := rfl
@[simp] theorem exec_joinedQuartetStart (s : State) :
    exec .joinedQuartetStart s = execJoinedQuartetStart s := rfl
@[simp] theorem exec_faultQueueCopy (s : State) :
    exec .faultQueueCopy s = execFaultQueueCopy s := rfl
@[simp] theorem exec_translationInstall (s : State) :
    exec .translationInstall s = execTranslationInstall s := rfl
@[simp] theorem exec_copyCommandStart (s : State) :
    exec .copyCommandStart s = execCopyCommandStart s := rfl
@[simp] theorem exec_phaseFinal (s : State) :
    exec .phaseFinal s = execPhaseFinal s := rfl
@[simp] theorem exec_quietPoint (s : State) :
    exec .quietPoint s = execQuietPoint s := rfl
@[simp] theorem exec_coreResume (s : State) :
    exec .coreResume s = execCoreResume s := rfl
@[simp] theorem exec_preemptionRequest (s : State) :
    exec .preemptionRequest s = execPreemptionRequest s := rfl
@[simp] theorem exec_contextSave (s : State) :
    exec .contextSave s = execContextSave s := rfl
@[simp] theorem exec_haltRetirement (s : State) :
    exec .haltRetirement s = execHaltRetirement s := rfl
@[simp] theorem exec_kickPlacement (s : State) :
    exec .kickPlacement s = execKickPlacement s := rfl
@[simp] theorem exec_spilledKickEntersPool (s : State) :
    exec .spilledKickEntersPool s = execSpilledKickEntersPool s := rfl
@[simp] theorem exec_crownTakeover (s : State) :
    exec .crownTakeover s = execCrownTakeover s := rfl
@[simp] theorem exec_debugResume (s : State) :
    exec .debugResume s = execDebugResume s := rfl
@[simp] theorem exec_debugStepExpiry (s : State) :
    exec .debugStepExpiry s = execDebugStepExpiry s := rfl
@[simp] theorem exec_thermalPowerOff (s : State) :
    exec .thermalPowerOff s = execThermalPowerOff s := rfl
@[simp] theorem exec_trunkCycle (s : State) :
    exec .trunkCycle s = execTrunkCycle s := rfl
@[simp] theorem exec_launchCompletion (s : State) :
    exec .launchCompletion s = execLaunchCompletion s := rfl
@[simp] theorem exec_planeLoad (s : State) :
    exec .planeLoad s = execPlaneLoad s := rfl
@[simp] theorem exec_planeWordError (s : State) :
    exec .planeWordError s = execPlaneWordError s := rfl

end Sys2Proof.Machine
end

