-- ==== Sys2Proof/Laws/PerInstr.lean ====
section
/-! SUPPORT. What holds of the encoding of every instruction: its word has an assigned opcode and function and carries the
instruction's own IDLE and GRD fields; and how the fields of a word are read back. -/

namespace Sys2Proof

/-! ## The fields of a word (R56) -/

/-- Bits above the low part of two joined fields are bits of the high part. -/
theorem extract_high {m n : Nat} (x : BitVec m) (y : BitVec n) {k : Nat} (l : Nat) (h : n ≤ k) :
    (x ++ y).extractLsb' k l = x.extractLsb' (k - n) l := by
  ext i hi
  rw [BitVec.getElem_extractLsb', BitVec.getElem_extractLsb', BitVec.getLsbD_append, if_neg (by omega)]
  congr 1; omega

/-- Bits within the low part of two joined fields are bits of it. -/
theorem extract_low {m n : Nat} (x : BitVec m) (y : BitVec n) {k l : Nat} (h : k + l ≤ n) :
    (x ++ y).extractLsb' k l = y.extractLsb' k l := by
  ext i hi
  rw [BitVec.getElem_extractLsb', BitVec.getElem_extractLsb', BitVec.getLsbD_append, if_pos (by omega)]

theorem extract_whole {n : Nat} (x : BitVec n) : x.extractLsb' 0 n = x := by ext i hi; simp

theorem opc_word (o : BitVec 8) (f : BitVec 4) (hd : Head) (b : BitVec 72) : (word o f hd b).extractLsb' 88 8 = o := by
  unfold word
  rw [extract_high _ _ _ (by decide), extract_high _ _ _ (by decide), extract_high _ _ _ (by decide), extract_high _ _ _ (by decide),
    extract_high _ _ _ (by decide), extract_whole]

theorem fn_word (o : BitVec 8) (f : BitVec 4) (hd : Head) (b : BitVec 72) : (word o f hd b).extractLsb' 84 4 = f := by
  unfold word
  rw [extract_high _ _ _ (by decide), extract_high _ _ _ (by decide), extract_high _ _ _ (by decide), extract_high _ _ _ (by decide),
    extract_low _ _ (by decide), extract_whole]

theorem idle_word (o : BitVec 8) (f : BitVec 4) (hd : Head) (b : BitVec 72) : (word o f hd b).extractLsb' 78 6 = hd.idle := by
  unfold word
  rw [extract_high _ _ _ (by decide), extract_high _ _ _ (by decide), extract_high _ _ _ (by decide), extract_low _ _ (by decide),
    extract_whole]

theorem neg_word (o : BitVec 8) (f : BitVec 4) (hd : Head) (b : BitVec 72) : (word o f hd b).extractLsb' 77 1 = bit1 hd.neg := by
  unfold word
  rw [extract_high _ _ _ (by decide), extract_high _ _ _ (by decide), extract_low _ _ (by decide), extract_whole]

theorem psel_word (o : BitVec 8) (f : BitVec 4) (hd : Head) (b : BitVec 72) : (word o f hd b).extractLsb' 72 5 = hd.psel := by
  unfold word
  rw [extract_high _ _ _ (by decide), extract_low _ _ (by decide), extract_whole]

theorem body_word (o : BitVec 8) (f : BitVec 4) (hd : Head) (b : BitVec 72) : (word o f hd b).extractLsb' 0 72 = b := by
  unfold word
  rw [extract_low _ _ (by decide), extract_whole]

end Sys2Proof

namespace Sys2Proof.Laws.Encoding

/-- The encoding of an instruction, where it has one, is a word with an assigned opcode and function (R70, R71). -/
def Statement (i : Instr) : Prop :=
  ∀ w, encode i = some w → ∃ (o : BitVec 8) (f : BitVec 4) (hd : Head) (b : BitVec 72),
    w = word o f hd b ∧ (opFns o.toNat).testBit f.toNat = true

theorem nop : ∀ x0, Statement (.nop x0) := by
  intro x0 w h; cases h; exact ⟨_, _, _, _, rfl, by decide⟩
theorem idle : ∀ x0 x1, Statement (.idle x0 x1) := by
  intro x0 x1 w h; cases h; exact ⟨_, _, _, _, rfl, by decide⟩
theorem br : ∀ x0 x1 x2, Statement (.br x0 x1 x2) := by
  intro x0 x1 x2 w h; cases h; exact ⟨_, _, _, _, rfl, by decide⟩
theorem brx : ∀ x0 x1, Statement (.brx x0 x1) := by
  intro x0 x1 w h; cases h; exact ⟨_, _, _, _, rfl, by decide⟩
theorem call : ∀ x0 x1 x2 x3, Statement (.call x0 x1 x2 x3) := by
  intro x0 x1 x2 x3 w h; cases h; exact ⟨_, _, _, _, rfl, by decide⟩
theorem ret : ∀ x0 x1, Statement (.ret x0 x1) := by
  intro x0 x1 w h; cases h; exact ⟨_, _, _, _, rfl, by decide⟩
theorem jsec : ∀ x0 x1, Statement (.jsec x0 x1) := by
  intro x0 x1 w h; cases h; exact ⟨_, _, _, _, rfl, by decide⟩
theorem jsecSteer : ∀ x0 x1 x2, Statement (.jsecSteer x0 x1 x2) := by
  intro x0 x1 x2 w h; cases h; exact ⟨_, _, _, _, rfl, by decide⟩
theorem jsecPark : ∀ x0 x1, Statement (.jsecPark x0 x1) := by
  intro x0 x1 w h; cases h; exact ⟨_, _, _, _, rfl, by decide⟩
theorem loop : ∀ x0 x1 x2 x3, Statement (.loop x0 x1 x2 x3) := by
  intro x0 x1 x2 x3 w h; cases h; exact ⟨_, _, _, _, rfl, by decide⟩
theorem loopx : ∀ x0 x1 x2 x3 x4 x5, Statement (.loopx x0 x1 x2 x3 x4 x5) := by
  intro x0 x1 x2 x3 x4 x5 w h; cases h; exact ⟨_, _, _, _, rfl, by decide⟩
theorem waitt : ∀ x0 x1, Statement (.waitt x0 x1) := by
  intro x0 x1 w h; cases x1 <;> (cases h; exact ⟨_, _, _, _, rfl, by decide⟩)
theorem halt : ∀ x0, Statement (.halt x0) := by
  intro x0 w h; cases h; exact ⟨_, _, _, _, rfl, by decide⟩
theorem quiet : ∀ x0, Statement (.quiet x0) := by
  intro x0 w h; cases h; exact ⟨_, _, _, _, rfl, by decide⟩
theorem yield : ∀ x0, Statement (.yield x0) := by
  intro x0 w h; cases h; exact ⟨_, _, _, _, rfl, by decide⟩
theorem time : ∀ x0 x1, Statement (.time x0 x1) := by
  intro x0 x1 w h; cases h; exact ⟨_, _, _, _, rfl, by decide⟩
theorem trunk : ∀ x0 x1, Statement (.trunk x0 x1) := by
  intro x0 x1 w h; cases h; exact ⟨_, _, _, _, rfl, by decide⟩
theorem trap : ∀ x0 x1, Statement (.trap x0 x1) := by
  intro x0 x1 w h; cases h; exact ⟨_, _, _, _, rfl, by decide⟩
theorem eret : ∀ x0, Statement (.eret x0) := by
  intro x0 w h; cases h; exact ⟨_, _, _, _, rfl, by decide⟩
theorem bkpt : ∀ x0 x1, Statement (.bkpt x0 x1) := by
  intro x0 x1 w h; cases h; exact ⟨_, _, _, _, rfl, by decide⟩
theorem mfs : ∀ x0 x1 x2, Statement (.mfs x0 x1 x2) := by
  intro x0 x1 x2 w h; cases h; exact ⟨_, _, _, _, rfl, by decide⟩
theorem mts : ∀ x0 x1 x2, Statement (.mts x0 x1 x2) := by
  intro x0 x1 x2 w h; cases h; exact ⟨_, _, _, _, rfl, by decide⟩
theorem phdecl : ∀ x0 x1 x2 x3 x4 x5 x6 x7, Statement (.phdecl x0 x1 x2 x3 x4 x5 x6 x7) := by
  intro x0 x1 x2 x3 x4 x5 x6 x7 w h; cases h; exact ⟨_, _, _, _, rfl, by decide⟩
theorem phdeclClear : ∀ x0 x1, Statement (.phdeclClear x0 x1) := by
  intro x0 x1 w h; cases h; exact ⟨_, _, _, _, rfl, by decide⟩
theorem phsw : ∀ x0 x1 x2, Statement (.phsw x0 x1 x2) := by
  intro x0 x1 x2 w h; cases h; exact ⟨_, _, _, _, rfl, by decide⟩
theorem spill : ∀ x0 x1 x2 x3, Statement (.spill x0 x1 x2 x3) := by
  intro x0 x1 x2 x3 w h; cases h; exact ⟨_, _, _, _, rfl, by decide⟩
theorem fill : ∀ x0 x1 x2 x3, Statement (.fill x0 x1 x2 x3) := by
  intro x0 x1 x2 x3 w h; cases h; exact ⟨_, _, _, _, rfl, by decide⟩
theorem fillDrop : ∀ x0 x1, Statement (.fillDrop x0 x1) := by
  intro x0 x1 w h; cases h; exact ⟨_, _, _, _, rfl, by decide⟩
theorem qwait : ∀ x0 x1, Statement (.qwait x0 x1) := by
  intro x0 x1 w h; cases h; exact ⟨_, _, _, _, rfl, by decide⟩
theorem qtest : ∀ x0 x1 x2, Statement (.qtest x0 x1 x2) := by
  intro x0 x1 x2 w h; cases h; exact ⟨_, _, _, _, rfl, by decide⟩
theorem add : ∀ x0 x1 x2 x3, Statement (.add x0 x1 x2 x3) := by
  intro x0 x1 x2 x3 w h; cases h; exact ⟨_, _, _, _, rfl, by decide⟩
theorem sub : ∀ x0 x1 x2 x3, Statement (.sub x0 x1 x2 x3) := by
  intro x0 x1 x2 x3 w h; cases h; exact ⟨_, _, _, _, rfl, by decide⟩
theorem mul : ∀ x0 x1 x2 x3, Statement (.mul x0 x1 x2 x3) := by
  intro x0 x1 x2 x3 w h; cases h; exact ⟨_, _, _, _, rfl, by decide⟩
theorem mulh : ∀ x0 x1 x2 x3, Statement (.mulh x0 x1 x2 x3) := by
  intro x0 x1 x2 x3 w h; cases h; exact ⟨_, _, _, _, rfl, by decide⟩
theorem div : ∀ x0 x1 x2 x3, Statement (.div x0 x1 x2 x3) := by
  intro x0 x1 x2 x3 w h; cases h; exact ⟨_, _, _, _, rfl, by decide⟩
theorem rem : ∀ x0 x1 x2 x3, Statement (.rem x0 x1 x2 x3) := by
  intro x0 x1 x2 x3 w h; cases h; exact ⟨_, _, _, _, rfl, by decide⟩
theorem and : ∀ x0 x1 x2 x3, Statement (.and x0 x1 x2 x3) := by
  intro x0 x1 x2 x3 w h; cases h; exact ⟨_, _, _, _, rfl, by decide⟩
theorem or : ∀ x0 x1 x2 x3, Statement (.or x0 x1 x2 x3) := by
  intro x0 x1 x2 x3 w h; cases h; exact ⟨_, _, _, _, rfl, by decide⟩
theorem xor : ∀ x0 x1 x2 x3, Statement (.xor x0 x1 x2 x3) := by
  intro x0 x1 x2 x3 w h; cases h; exact ⟨_, _, _, _, rfl, by decide⟩
theorem andn : ∀ x0 x1 x2 x3, Statement (.andn x0 x1 x2 x3) := by
  intro x0 x1 x2 x3 w h; cases h; exact ⟨_, _, _, _, rfl, by decide⟩
theorem shl : ∀ x0 x1 x2 x3, Statement (.shl x0 x1 x2 x3) := by
  intro x0 x1 x2 x3 w h; cases h; exact ⟨_, _, _, _, rfl, by decide⟩
theorem shr : ∀ x0 x1 x2 x3, Statement (.shr x0 x1 x2 x3) := by
  intro x0 x1 x2 x3 w h; cases h; exact ⟨_, _, _, _, rfl, by decide⟩
theorem sar : ∀ x0 x1 x2 x3, Statement (.sar x0 x1 x2 x3) := by
  intro x0 x1 x2 x3 w h; cases h; exact ⟨_, _, _, _, rfl, by decide⟩
theorem rol : ∀ x0 x1 x2 x3, Statement (.rol x0 x1 x2 x3) := by
  intro x0 x1 x2 x3 w h; cases h; exact ⟨_, _, _, _, rfl, by decide⟩
theorem min : ∀ x0 x1 x2 x3, Statement (.min x0 x1 x2 x3) := by
  intro x0 x1 x2 x3 w h; cases h; exact ⟨_, _, _, _, rfl, by decide⟩
theorem max : ∀ x0 x1 x2 x3, Statement (.max x0 x1 x2 x3) := by
  intro x0 x1 x2 x3 w h; cases h; exact ⟨_, _, _, _, rfl, by decide⟩
theorem addi : ∀ x0 x1 x2 x3, Statement (.addi x0 x1 x2 x3) := by
  intro x0 x1 x2 x3 w h; cases h; exact ⟨_, _, _, _, rfl, by decide⟩
theorem andImm : ∀ x0 x1 x2 x3, Statement (.andImm x0 x1 x2 x3) := by
  intro x0 x1 x2 x3 w h; cases h; exact ⟨_, _, _, _, rfl, by decide⟩
theorem orImm : ∀ x0 x1 x2 x3, Statement (.orImm x0 x1 x2 x3) := by
  intro x0 x1 x2 x3 w h; cases h; exact ⟨_, _, _, _, rfl, by decide⟩
theorem xorImm : ∀ x0 x1 x2 x3, Statement (.xorImm x0 x1 x2 x3) := by
  intro x0 x1 x2 x3 w h; cases h; exact ⟨_, _, _, _, rfl, by decide⟩
theorem andnImm : ∀ x0 x1 x2 x3, Statement (.andnImm x0 x1 x2 x3) := by
  intro x0 x1 x2 x3 w h; cases h; exact ⟨_, _, _, _, rfl, by decide⟩
theorem shlImm : ∀ x0 x1 x2 x3, Statement (.shlImm x0 x1 x2 x3) := by
  intro x0 x1 x2 x3 w h; cases h; exact ⟨_, _, _, _, rfl, by decide⟩
theorem shrImm : ∀ x0 x1 x2 x3, Statement (.shrImm x0 x1 x2 x3) := by
  intro x0 x1 x2 x3 w h; cases h; exact ⟨_, _, _, _, rfl, by decide⟩
theorem sarImm : ∀ x0 x1 x2 x3, Statement (.sarImm x0 x1 x2 x3) := by
  intro x0 x1 x2 x3 w h; cases h; exact ⟨_, _, _, _, rfl, by decide⟩
theorem rolImm : ∀ x0 x1 x2 x3, Statement (.rolImm x0 x1 x2 x3) := by
  intro x0 x1 x2 x3 w h; cases h; exact ⟨_, _, _, _, rfl, by decide⟩
theorem minImm : ∀ x0 x1 x2 x3, Statement (.minImm x0 x1 x2 x3) := by
  intro x0 x1 x2 x3 w h; cases h; exact ⟨_, _, _, _, rfl, by decide⟩
theorem maxImm : ∀ x0 x1 x2 x3, Statement (.maxImm x0 x1 x2 x3) := by
  intro x0 x1 x2 x3 w h; cases h; exact ⟨_, _, _, _, rfl, by decide⟩
theorem clz : ∀ x0 x1 x2, Statement (.clz x0 x1 x2) := by
  intro x0 x1 x2 w h; cases h; exact ⟨_, _, _, _, rfl, by decide⟩
theorem popc : ∀ x0 x1 x2, Statement (.popc x0 x1 x2) := by
  intro x0 x1 x2 w h; cases h; exact ⟨_, _, _, _, rfl, by decide⟩
theorem ldi : ∀ x0 x1 x2, Statement (.ldi x0 x1 x2) := by
  intro x0 x1 x2 w h; cases h; exact ⟨_, _, _, _, rfl, by decide⟩
theorem sel : ∀ x0 x1 x2 x3 x4, Statement (.sel x0 x1 x2 x3 x4) := by
  intro x0 x1 x2 x3 x4 w h; cases h; exact ⟨_, _, _, _, rfl, by decide⟩
theorem cmp : ∀ x0 x1 x2 x3 x4, Statement (.cmp x0 x1 x2 x3 x4) := by
  intro x0 x1 x2 x3 x4 w h; cases h; exact ⟨_, _, _, _, rfl, by decide⟩
theorem fadds : ∀ x0 x1 x2 x3, Statement (.fadds x0 x1 x2 x3) := by
  intro x0 x1 x2 x3 w h; cases h; exact ⟨_, _, _, _, rfl, by decide⟩
theorem fmuls : ∀ x0 x1 x2 x3, Statement (.fmuls x0 x1 x2 x3) := by
  intro x0 x1 x2 x3 w h; cases h; exact ⟨_, _, _, _, rfl, by decide⟩
theorem ffmas : ∀ x0 x1 x2 x3 x4, Statement (.ffmas x0 x1 x2 x3 x4) := by
  intro x0 x1 x2 x3 x4 w h; cases h; exact ⟨_, _, _, _, rfl, by decide⟩
theorem fcmps : ∀ x0 x1 x2 x3 x4, Statement (.fcmps x0 x1 x2 x3 x4) := by
  intro x0 x1 x2 x3 x4 w h; cases h; exact ⟨_, _, _, _, rfl, by decide⟩
theorem fmins : ∀ x0 x1 x2 x3, Statement (.fmins x0 x1 x2 x3) := by
  intro x0 x1 x2 x3 w h; cases h; exact ⟨_, _, _, _, rfl, by decide⟩
theorem fmaxs : ∀ x0 x1 x2 x3, Statement (.fmaxs x0 x1 x2 x3) := by
  intro x0 x1 x2 x3 w h; cases h; exact ⟨_, _, _, _, rfl, by decide⟩
theorem lea : ∀ x0 x1 x2 x3, Statement (.lea x0 x1 x2 x3) := by
  intro x0 x1 x2 x3 w h; cases h; exact ⟨_, _, _, _, rfl, by decide⟩
theorem ainc : ∀ x0 x1 x2, Statement (.ainc x0 x1 x2) := by
  intro x0 x1 x2 w h; cases h; exact ⟨_, _, _, _, rfl, by decide⟩
theorem movy : ∀ x0 x1, Statement (.movy x0 x1) := by
  intro x0 x1 w h; cases x1 <;> (cases h; exact ⟨_, _, _, _, rfl, by decide⟩)
theorem movk : ∀ x0 x1, Statement (.movk x0 x1) := by
  intro x0 x1 w h; cases x1 <;> (cases h; exact ⟨_, _, _, _, rfl, by decide⟩)
theorem pgand : ∀ x0 x1 x2 x3, Statement (.pgand x0 x1 x2 x3) := by
  intro x0 x1 x2 x3 w h; cases h; exact ⟨_, _, _, _, rfl, by decide⟩
theorem pgor : ∀ x0 x1 x2 x3, Statement (.pgor x0 x1 x2 x3) := by
  intro x0 x1 x2 x3 w h; cases h; exact ⟨_, _, _, _, rfl, by decide⟩
theorem pgxor : ∀ x0 x1 x2 x3, Statement (.pgxor x0 x1 x2 x3) := by
  intro x0 x1 x2 x3 w h; cases h; exact ⟨_, _, _, _, rfl, by decide⟩
theorem pgnot : ∀ x0 x1 x2, Statement (.pgnot x0 x1 x2) := by
  intro x0 x1 x2 w h; cases h; exact ⟨_, _, _, _, rfl, by decide⟩
theorem pgmov : ∀ x0 x1 x2, Statement (.pgmov x0 x1 x2) := by
  intro x0 x1 x2 w h; cases h; exact ⟨_, _, _, _, rfl, by decide⟩
theorem lds : ∀ x0 x1 x2 x3 x4 x5, Statement (.lds x0 x1 x2 x3 x4 x5) := by
  intro x0 x1 x2 x3 x4 x5 w h; cases h; exact ⟨_, _, _, _, rfl, by decide⟩
theorem sts : ∀ x0 x1 x2 x3 x4, Statement (.sts x0 x1 x2 x3 x4) := by
  intro x0 x1 x2 x3 x4 w h; cases h; exact ⟨_, _, _, _, rfl, by decide⟩
theorem ldsx : ∀ x0 x1 x2 x3 x4 x5 x6, Statement (.ldsx x0 x1 x2 x3 x4 x5 x6) := by
  intro x0 x1 x2 x3 x4 x5 x6 w h; cases h; exact ⟨_, _, _, _, rfl, by decide⟩
theorem stsx : ∀ x0 x1 x2 x3 x4 x5, Statement (.stsx x0 x1 x2 x3 x4 x5) := by
  intro x0 x1 x2 x3 x4 x5 w h; cases h; exact ⟨_, _, _, _, rfl, by decide⟩
theorem mma : ∀ x0 x1 x2, Statement (.mma x0 x1 x2) := by
  intro x0 x1 x2 w h; cases h; exact ⟨_, _, _, _, rfl, by decide⟩
theorem mmas : ∀ x0 x1 x2, Statement (.mmas x0 x1 x2) := by
  intro x0 x1 x2 w h; cases h; exact ⟨_, _, _, _, rfl, by decide⟩
theorem mmac : ∀ x0 x1 x2, Statement (.mmac x0 x1 x2) := by
  intro x0 x1 x2 w h; cases h; exact ⟨_, _, _, _, rfl, by decide⟩
theorem mld : ∀ x0 x1 x2 x3, Statement (.mld x0 x1 x2 x3) := by
  intro x0 x1 x2 x3 w h; cases h; exact ⟨_, _, _, _, rfl, by decide⟩
theorem mst : ∀ x0 x1 x2 x3, Statement (.mst x0 x1 x2 x3) := by
  intro x0 x1 x2 x3 w h; cases h; exact ⟨_, _, _, _, rfl, by decide⟩
theorem mmov : ∀ x0 x1 x2 x3, Statement (.mmov x0 x1 x2 x3) := by
  intro x0 x1 x2 x3 w h; cases h; exact ⟨_, _, _, _, rfl, by decide⟩
theorem mzero : ∀ x0 x1 x2, Statement (.mzero x0 x1 x2) := by
  intro x0 x1 x2 w h; cases h; exact ⟨_, _, _, _, rfl, by decide⟩
theorem mdrain : ∀ x0 x1 x2 x3 x4 x5 x6, Statement (.mdrain x0 x1 x2 x3 x4 x5 x6) := by
  intro x0 x1 x2 x3 x4 x5 x6 w h; cases h; exact ⟨_, _, _, _, rfl, by decide⟩
theorem mchk : ∀ x0 x1 x2, Statement (.mchk x0 x1 x2) := by
  intro x0 x1 x2 w h; cases h; exact ⟨_, _, _, _, rfl, by decide⟩
theorem mloc : ∀ x0 x1 x2, Statement (.mloc x0 x1 x2) := by
  intro x0 x1 x2 w h; cases h; exact ⟨_, _, _, _, rfl, by decide⟩
theorem mfix : ∀ x0 x1 x2, Statement (.mfix x0 x1 x2) := by
  intro x0 x1 x2 w h; cases h; exact ⟨_, _, _, _, rfl, by decide⟩
theorem mretry : ∀ x0 x1, Statement (.mretry x0 x1) := by
  intro x0 x1 w h; cases h; exact ⟨_, _, _, _, rfl, by decide⟩
theorem mtols : ∀ x0 x1, Statement (.mtols x0 x1) := by
  intro x0 x1 w h; cases h; exact ⟨_, _, _, _, rfl, by decide⟩
theorem acalloc : ∀ x0 x1 x2 x3, Statement (.acalloc x0 x1 x2 x3) := by
  intro x0 x1 x2 x3 w h; cases h; exact ⟨_, _, _, _, rfl, by decide⟩
theorem acfree : ∀ x0 x1 x2, Statement (.acfree x0 x1 x2) := by
  intro x0 x1 x2 w h; cases h; exact ⟨_, _, _, _, rfl, by decide⟩
theorem acband : ∀ x0 x1 x2, Statement (.acband x0 x1 x2) := by
  intro x0 x1 x2 w h; cases h; exact ⟨_, _, _, _, rfl, by decide⟩
theorem acrd : ∀ x0 x1 x2 x3 x4 x5 x6, Statement (.acrd x0 x1 x2 x3 x4 x5 x6) := by
  intro x0 x1 x2 x3 x4 x5 x6 w h; cases h; exact ⟨_, _, _, _, rfl, by decide⟩
theorem acwr : ∀ x0 x1 x2 x3 x4 x5, Statement (.acwr x0 x1 x2 x3 x4 x5) := by
  intro x0 x1 x2 x3 x4 x5 w h; cases h; exact ⟨_, _, _, _, rfl, by decide⟩
theorem aczero : ∀ x0 x1 x2 x3 x4, Statement (.aczero x0 x1 x2 x3 x4) := by
  intro x0 x1 x2 x3 x4 w h; cases h; exact ⟨_, _, _, _, rfl, by decide⟩
theorem scld : ∀ x0 x1 x2 x3, Statement (.scld x0 x1 x2 x3) := by
  intro x0 x1 x2 x3 w h; cases h; exact ⟨_, _, _, _, rfl, by decide⟩
theorem vadd : ∀ x0 x1, Statement (.vadd x0 x1) := by
  intro x0 x1 w h; cases h; exact ⟨_, _, _, _, rfl, by decide⟩
theorem vsub : ∀ x0 x1, Statement (.vsub x0 x1) := by
  intro x0 x1 w h; cases h; exact ⟨_, _, _, _, rfl, by decide⟩
theorem vmul : ∀ x0 x1, Statement (.vmul x0 x1) := by
  intro x0 x1 w h; cases h; exact ⟨_, _, _, _, rfl, by decide⟩
theorem vfma : ∀ x0 x1, Statement (.vfma x0 x1) := by
  intro x0 x1 w h; cases h; exact ⟨_, _, _, _, rfl, by decide⟩
theorem vmax : ∀ x0 x1, Statement (.vmax x0 x1) := by
  intro x0 x1 w h; cases h; exact ⟨_, _, _, _, rfl, by decide⟩
theorem vmin : ∀ x0 x1, Statement (.vmin x0 x1) := by
  intro x0 x1 w h; cases h; exact ⟨_, _, _, _, rfl, by decide⟩
theorem vabs : ∀ x0 x1, Statement (.vabs x0 x1) := by
  intro x0 x1 w h; cases h; exact ⟨_, _, _, _, rfl, by decide⟩
theorem vneg : ∀ x0 x1, Statement (.vneg x0 x1) := by
  intro x0 x1 w h; cases h; exact ⟨_, _, _, _, rfl, by decide⟩
theorem vclamp : ∀ x0 x1, Statement (.vclamp x0 x1) := by
  intro x0 x1 w h; cases h; exact ⟨_, _, _, _, rfl, by decide⟩
theorem vrcp : ∀ x0 x1, Statement (.vrcp x0 x1) := by
  intro x0 x1 w h; cases h; exact ⟨_, _, _, _, rfl, by decide⟩
theorem vrsqrt : ∀ x0 x1, Statement (.vrsqrt x0 x1) := by
  intro x0 x1 w h; cases h; exact ⟨_, _, _, _, rfl, by decide⟩
theorem vsqrt : ∀ x0 x1, Statement (.vsqrt x0 x1) := by
  intro x0 x1 w h; cases h; exact ⟨_, _, _, _, rfl, by decide⟩
theorem vexp2 : ∀ x0 x1, Statement (.vexp2 x0 x1) := by
  intro x0 x1 w h; cases h; exact ⟨_, _, _, _, rfl, by decide⟩
theorem vlog2 : ∀ x0 x1, Statement (.vlog2 x0 x1) := by
  intro x0 x1 w h; cases h; exact ⟨_, _, _, _, rfl, by decide⟩
theorem vtanh : ∀ x0 x1, Statement (.vtanh x0 x1) := by
  intro x0 x1 w h; cases h; exact ⟨_, _, _, _, rfl, by decide⟩
theorem vrsum : ∀ x0 x1, Statement (.vrsum x0 x1) := by
  intro x0 x1 w h; cases h; exact ⟨_, _, _, _, rfl, by decide⟩
theorem vrmax : ∀ x0 x1, Statement (.vrmax x0 x1) := by
  intro x0 x1 w h; cases h; exact ⟨_, _, _, _, rfl, by decide⟩
theorem vrmin : ∀ x0 x1, Statement (.vrmin x0 x1) := by
  intro x0 x1 w h; cases h; exact ⟨_, _, _, _, rfl, by decide⟩
theorem vscan : ∀ x0 x1, Statement (.vscan x0 x1) := by
  intro x0 x1 w h; cases h; exact ⟨_, _, _, _, rfl, by decide⟩
theorem vcmp : ∀ x0 x1, Statement (.vcmp x0 x1) := by
  intro x0 x1 w h; cases h; exact ⟨_, _, _, _, rfl, by decide⟩
theorem vsel : ∀ x0 x1, Statement (.vsel x0 x1) := by
  intro x0 x1 w h; cases h; exact ⟨_, _, _, _, rfl, by decide⟩
theorem vcompact : ∀ x0 x1, Statement (.vcompact x0 x1) := by
  intro x0 x1 w h; cases h; exact ⟨_, _, _, _, rfl, by decide⟩
theorem viota : ∀ x0 x1, Statement (.viota x0 x1) := by
  intro x0 x1 w h; cases h; exact ⟨_, _, _, _, rfl, by decide⟩
theorem vtopk : ∀ x0 x1, Statement (.vtopk x0 x1) := by
  intro x0 x1 w h; cases h; exact ⟨_, _, _, _, rfl, by decide⟩
theorem vgather : ∀ x0 x1, Statement (.vgather x0 x1) := by
  intro x0 x1 w h; cases h; exact ⟨_, _, _, _, rfl, by decide⟩
theorem vbcast : ∀ x0 x1, Statement (.vbcast x0 x1) := by
  intro x0 x1 w h; cases h; exact ⟨_, _, _, _, rfl, by decide⟩
theorem vmov : ∀ x0 x1, Statement (.vmov x0 x1) := by
  intro x0 x1 w h; cases h; exact ⟨_, _, _, _, rfl, by decide⟩
theorem vand : ∀ x0 x1, Statement (.vand x0 x1) := by
  intro x0 x1 w h; cases h; exact ⟨_, _, _, _, rfl, by decide⟩
theorem vor : ∀ x0 x1, Statement (.vor x0 x1) := by
  intro x0 x1 w h; cases h; exact ⟨_, _, _, _, rfl, by decide⟩
theorem vxor : ∀ x0 x1, Statement (.vxor x0 x1) := by
  intro x0 x1 w h; cases h; exact ⟨_, _, _, _, rfl, by decide⟩
theorem vshl : ∀ x0 x1, Statement (.vshl x0 x1) := by
  intro x0 x1 w h; cases h; exact ⟨_, _, _, _, rfl, by decide⟩
theorem vshr : ∀ x0 x1, Statement (.vshr x0 x1) := by
  intro x0 x1 w h; cases h; exact ⟨_, _, _, _, rfl, by decide⟩
theorem vrand : ∀ x0 x1, Statement (.vrand x0 x1) := by
  intro x0 x1 w h; cases h; exact ⟨_, _, _, _, rfl, by decide⟩
theorem vcbx : ∀ x0 x1, Statement (.vcbx x0 x1) := by
  intro x0 x1 w h; cases h; exact ⟨_, _, _, _, rfl, by decide⟩
theorem cbld : ∀ x0 x1 x2 x3 x4, Statement (.cbld x0 x1 x2 x3 x4) := by
  intro x0 x1 x2 x3 x4 w h; cases h; exact ⟨_, _, _, _, rfl, by decide⟩
theorem cbwait : ∀ x0 x1, Statement (.cbwait x0 x1) := by
  intro x0 x1 w h; cases h; exact ⟨_, _, _, _, rfl, by decide⟩
theorem cbsave : ∀ x0 x1 x2, Statement (.cbsave x0 x1 x2) := by
  intro x0 x1 x2 w h; cases h; exact ⟨_, _, _, _, rfl, by decide⟩
theorem cbrest : ∀ x0 x1, Statement (.cbrest x0 x1) := by
  intro x0 x1 w h; cases h; exact ⟨_, _, _, _, rfl, by decide⟩
theorem cbchk : ∀ x0 x1 x2, Statement (.cbchk x0 x1 x2) := by
  intro x0 x1 x2 w h; cases h; exact ⟨_, _, _, _, rfl, by decide⟩
theorem ftset : ∀ x0 x1 x2, Statement (.ftset x0 x1 x2) := by
  intro x0 x1 x2 w h; cases h; exact ⟨_, _, _, _, rfl, by decide⟩
theorem cpin : ∀ x0 x1, Statement (.cpin x0 x1) := by
  intro x0 x1 w h; cases h; exact ⟨_, _, _, _, rfl, by decide⟩
theorem cpin2 : ∀ x0 x1 x2 x3, Statement (.cpin2 x0 x1 x2 x3) := by
  intro x0 x1 x2 x3 w h; cases h; exact ⟨_, _, _, _, rfl, by decide⟩
theorem gather : ∀ x0 x1 x2 x3, Statement (.gather x0 x1 x2 x3) := by
  intro x0 x1 x2 x3 w h; cases h; exact ⟨_, _, _, _, rfl, by decide⟩
theorem pfetch : ∀ x0 x1 x2 x3 x4, Statement (.pfetch x0 x1 x2 x3 x4) := by
  intro x0 x1 x2 x3 x4 w h; cases h; exact ⟨_, _, _, _, rfl, by decide⟩
theorem pfwait : ∀ x0 x1 x2, Statement (.pfwait x0 x1 x2) := by
  intro x0 x1 x2 w h; cases h; exact ⟨_, _, _, _, rfl, by decide⟩
theorem pfpin : ∀ x0 x1 x2 x3 x4, Statement (.pfpin x0 x1 x2 x3 x4) := by
  intro x0 x1 x2 x3 x4 w h; cases h; exact ⟨_, _, _, _, rfl, by decide⟩
theorem pfunpin : ∀ x0 x1 x2 x3, Statement (.pfunpin x0 x1 x2 x3) := by
  intro x0 x1 x2 x3 w h; cases h; exact ⟨_, _, _, _, rfl, by decide⟩
theorem discard : ∀ x0 x1 x2 x3 x4, Statement (.discard x0 x1 x2 x3 x4) := by
  intro x0 x1 x2 x3 x4 w h; cases h; exact ⟨_, _, _, _, rfl, by decide⟩
theorem slotrdEntry : ∀ x0 x1 x2 x3, Statement (.slotrdEntry x0 x1 x2 x3) := by
  intro x0 x1 x2 x3 w h; cases h; exact ⟨_, _, _, _, rfl, by decide⟩
theorem slotrdGap : ∀ x0 x1 x2, Statement (.slotrdGap x0 x1 x2) := by
  intro x0 x1 x2 w h; cases h; exact ⟨_, _, _, _, rfl, by decide⟩
theorem slotrdLat : ∀ x0 x1, Statement (.slotrdLat x0 x1) := by
  intro x0 x1 w h; cases h; exact ⟨_, _, _, _, rfl, by decide⟩
theorem xlate : ∀ x0 x1 x2, Statement (.xlate x0 x1 x2) := by
  intro x0 x1 x2 w h; cases h; exact ⟨_, _, _, _, rfl, by decide⟩
theorem hdrop : ∀ x0 x1, Statement (.hdrop x0 x1) := by
  intro x0 x1 w h; cases h; exact ⟨_, _, _, _, rfl, by decide⟩
theorem htest : ∀ x0 x1 x2, Statement (.htest x0 x1 x2) := by
  intro x0 x1 x2 w h; cases h; exact ⟨_, _, _, _, rfl, by decide⟩
theorem hmov : ∀ x0 x1 x2, Statement (.hmov x0 x1 x2) := by
  intro x0 x1 x2 w h; cases h; exact ⟨_, _, _, _, rfl, by decide⟩
theorem pst : ∀ x0 x1, Statement (.pst x0 x1) := by
  intro x0 x1 w h; cases h; exact ⟨_, _, _, _, rfl, by decide⟩
theorem padd : ∀ x0 x1 x2, Statement (.padd x0 x1 x2) := by
  intro x0 x1 x2 w h; cases h; exact ⟨_, _, _, _, rfl, by decide⟩
theorem pmax : ∀ x0 x1, Statement (.pmax x0 x1) := by
  intro x0 x1 w h; cases h; exact ⟨_, _, _, _, rfl, by decide⟩
theorem pmin : ∀ x0 x1, Statement (.pmin x0 x1) := by
  intro x0 x1 w h; cases h; exact ⟨_, _, _, _, rfl, by decide⟩
theorem pxor : ∀ x0 x1, Statement (.pxor x0 x1) := by
  intro x0 x1 w h; cases h; exact ⟨_, _, _, _, rfl, by decide⟩
theorem por : ∀ x0 x1, Statement (.por x0 x1) := by
  intro x0 x1 w h; cases h; exact ⟨_, _, _, _, rfl, by decide⟩
theorem pand : ∀ x0 x1, Statement (.pand x0 x1) := by
  intro x0 x1 w h; cases h; exact ⟨_, _, _, _, rfl, by decide⟩
theorem pinv : ∀ x0 x1 x2, Statement (.pinv x0 x1 x2) := by
  intro x0 x1 x2 w h; cases h; exact ⟨_, _, _, _, rfl, by decide⟩
theorem pdrop : ∀ x0 x1 x2 x3, Statement (.pdrop x0 x1 x2 x3) := by
  intro x0 x1 x2 x3 w h; cases h; exact ⟨_, _, _, _, rfl, by decide⟩
theorem pcomm : ∀ x0 x1 x2 x3 x4, Statement (.pcomm x0 x1 x2 x3 x4) := by
  intro x0 x1 x2 x3 x4 w h; cases h; exact ⟨_, _, _, _, rfl, by decide⟩
theorem pxpl : ∀ x0 x1 x2 x3 x4, Statement (.pxpl x0 x1 x2 x3 x4) := by
  intro x0 x1 x2 x3 x4 w h; cases h; exact ⟨_, _, _, _, rfl, by decide⟩
theorem psq : ∀ x0 x1, Statement (.psq x0 x1) := by
  intro x0 x1 w h; cases h; exact ⟨_, _, _, _, rfl, by decide⟩
theorem pmrg : ∀ x0 x1 x2 x3 x4, Statement (.pmrg x0 x1 x2 x3 x4) := by
  intro x0 x1 x2 x3 x4 w h; cases h; exact ⟨_, _, _, _, rfl, by decide⟩
theorem ppub : ∀ x0 x1, Statement (.ppub x0 x1) := by
  intro x0 x1 w h; cases h; exact ⟨_, _, _, _, rfl, by decide⟩
theorem pwait : ∀ x0, Statement (.pwait x0) := by
  intro x0 w h; cases h; exact ⟨_, _, _, _, rfl, by decide⟩
theorem pname : ∀ x0 x1, Statement (.pname x0 x1) := by
  intro x0 x1 w h; cases h; exact ⟨_, _, _, _, rfl, by decide⟩
theorem psnapOn : ∀ x0 x1, Statement (.psnapOn x0 x1) := by
  intro x0 x1 w h; cases h; exact ⟨_, _, _, _, rfl, by decide⟩
theorem psnapOff : ∀ x0 x1, Statement (.psnapOff x0 x1) := by
  intro x0 x1 w h; cases h; exact ⟨_, _, _, _, rfl, by decide⟩
theorem fenceAcq : ∀ x0 x1, Statement (.fenceAcq x0 x1) := by
  intro x0 x1 w h; cases h; exact ⟨_, _, _, _, rfl, by decide⟩
theorem fenceRel : ∀ x0 x1, Statement (.fenceRel x0 x1) := by
  intro x0 x1 w h; cases h; exact ⟨_, _, _, _, rfl, by decide⟩
theorem fenceAcqrel : ∀ x0 x1, Statement (.fenceAcqrel x0 x1) := by
  intro x0 x1 w h; cases h; exact ⟨_, _, _, _, rfl, by decide⟩
theorem fset : ∀ x0 x1 x2 x3, Statement (.fset x0 x1 x2 x3) := by
  intro x0 x1 x2 x3 w h; cases h; exact ⟨_, _, _, _, rfl, by decide⟩
theorem fadd : ∀ x0 x1 x2 x3 x4, Statement (.fadd x0 x1 x2 x3 x4) := by
  intro x0 x1 x2 x3 x4 w h; cases h; exact ⟨_, _, _, _, rfl, by decide⟩
theorem fwait : ∀ x0 x1 x2 x3 x4, Statement (.fwait x0 x1 x2 x3 x4) := by
  intro x0 x1 x2 x3 x4 w h; cases h; exact ⟨_, _, _, _, rfl, by decide⟩
theorem fget : ∀ x0 x1 x2 x3, Statement (.fget x0 x1 x2 x3) := by
  intro x0 x1 x2 x3 w h; cases h; exact ⟨_, _, _, _, rfl, by decide⟩
theorem bara : ∀ x0 x1 x2, Statement (.bara x0 x1 x2) := by
  intro x0 x1 x2 w h; cases h; exact ⟨_, _, _, _, rfl, by decide⟩
theorem barw : ∀ x0 x1 x2 x3 x4, Statement (.barw x0 x1 x2 x3 x4) := by
  intro x0 x1 x2 x3 x4 w h; cases h; exact ⟨_, _, _, _, rfl, by decide⟩
theorem kick : ∀ x0 x1 x2 x3, Statement (.kick x0 x1 x2 x3) := by
  intro x0 x1 x2 x3 w h; cases h; exact ⟨_, _, _, _, rfl, by decide⟩
theorem kwait : ∀ x0 x1, Statement (.kwait x0 x1) := by
  intro x0 x1 w h; cases h; exact ⟨_, _, _, _, rfl, by decide⟩
theorem swap : ∀ x0 x1, Statement (.swap x0 x1) := by
  intro x0 x1 w h; cases h; exact ⟨_, _, _, _, rfl, by decide⟩
theorem taskend : ∀ x0, Statement (.taskend x0) := by
  intro x0 w h; cases h; exact ⟨_, _, _, _, rfl, by decide⟩
theorem cvt : ∀ x0 x1 x2 x3 x4 x5 x6, Statement (.cvt x0 x1 x2 x3 x4 x5 x6) := by
  intro x0 x1 x2 x3 x4 x5 x6 w h; cases h; exact ⟨_, _, _, _, rfl, by decide⟩
theorem fclass : ∀ x0 x1 x2 x3, Statement (.fclass x0 x1 x2 x3) := by
  intro x0 x1 x2 x3 w h; cases h; exact ⟨_, _, _, _, rfl, by decide⟩
theorem vcvt : ∀ x0 x1, Statement (.vcvt x0 x1) := by
  intro x0 x1 w h; cases h; exact ⟨_, _, _, _, rfl, by decide⟩
theorem vquant : ∀ x0 x1, Statement (.vquant x0 x1) := by
  intro x0 x1 w h; cases h; exact ⟨_, _, _, _, rfl, by decide⟩
theorem vdeq : ∀ x0 x1, Statement (.vdeq x0 x1) := by
  intro x0 x1 w h; cases h; exact ⟨_, _, _, _, rfl, by decide⟩
theorem vbscl : ∀ x0 x1, Statement (.vbscl x0 x1) := by
  intro x0 x1 w h; cases h; exact ⟨_, _, _, _, rfl, by decide⟩
theorem vpack : ∀ x0 x1, Statement (.vpack x0 x1) := by
  intro x0 x1 w h; cases h; exact ⟨_, _, _, _, rfl, by decide⟩
theorem vunpack : ∀ x0 x1, Statement (.vunpack x0 x1) := by
  intro x0 x1 w h; cases h; exact ⟨_, _, _, _, rfl, by decide⟩
theorem chkerr : ∀ x0 x1 x2, Statement (.chkerr x0 x1 x2) := by
  intro x0 x1 x2 w h; cases h; exact ⟨_, _, _, _, rfl, by decide⟩
theorem idleExpiry : ∀ x0, Statement (.idleExpiry x0) := by
  intro x0 w h; cases h
theorem waitConditionMet : ∀ x0, Statement (.waitConditionMet x0) := by
  intro x0 w h; cases h
theorem sectionFallThrough : ∀ x0, Statement (.sectionFallThrough x0) := by
  intro x0 w h; cases h
theorem entryWaitMet : ∀ x0, Statement (.entryWaitMet x0) := by
  intro x0 w h; cases h
theorem revocationMarker : ∀ x0 x1, Statement (.revocationMarker x0 x1) := by
  intro x0 x1 w h; cases h
theorem pageRelease : ∀ x0 x1, Statement (.pageRelease x0 x1) := by
  intro x0 x1 w h; cases h
theorem drawerUnitArrival : ∀ x0 x1, Statement (.drawerUnitArrival x0 x1) := by
  intro x0 x1 w h; cases h
theorem linkRetrainComplete : ∀ x0, Statement (.linkRetrainComplete x0) := by
  intro x0 w h; cases h
theorem linkGroupDown : ∀ x0, Statement (.linkGroupDown x0) := by
  intro x0 w h; cases h
theorem copyInCompletion : ∀ x0, Statement (.copyInCompletion x0) := by
  intro x0 w h; cases h
theorem prefetchDone : ∀ x0, Statement (.prefetchDone x0) := by
  intro x0 w h; cases h
theorem patchArrival : ∀ x0, Statement (.patchArrival x0) := by
  intro x0 w h; cases h
theorem patchReoffer : ∀ x0, Statement (.patchReoffer x0) := by
  intro x0 w h; cases h
theorem patchAnswer : ∀ x0, Statement (.patchAnswer x0) := by
  intro x0 w h; cases h
theorem sealLineUpdate : ∀ x0 x1, Statement (.sealLineUpdate x0 x1) := by
  intro x0 x1 w h; cases h
theorem operationPacketArrival : ∀ x0, Statement (.operationPacketArrival x0) := by
  intro x0 w h; cases h
theorem sourceCloseExpiry : ∀ x0, Statement (.sourceCloseExpiry x0) := by
  intro x0 w h; cases h
theorem podReleaseAck : ∀ x0 x1, Statement (.podReleaseAck x0 x1) := by
  intro x0 x1 w h; cases h
theorem releaseComplete : ∀ x0, Statement (.releaseComplete x0) := by
  intro x0 w h; cases h
theorem checkpointCopyAdvance : ∀ x0, Statement (.checkpointCopyAdvance x0) := by
  intro x0 w h; cases h
theorem asyncEventArrival : ∀ x0, Statement (.asyncEventArrival x0) := by
  intro x0 w h; cases h
theorem throttleBubble : ∀ x0, Statement (.throttleBubble x0) := by
  intro x0 w h; cases h
theorem submitLaunch : ∀ x0 x1 x2, Statement (.submitLaunch x0 x1 x2) := by
  intro x0 x1 x2 w h; cases h
theorem cancelLaunch : ∀ x0 x1 x2, Statement (.cancelLaunch x0 x1 x2) := by
  intro x0 x1 x2 w h; cases h
theorem takeCheckpoint : ∀ x0 x1 x2, Statement (.takeCheckpoint x0 x1 x2) := by
  intro x0 x1 x2 w h; cases h
theorem loadCheckpoint : ∀ x0 x1 x2, Statement (.loadCheckpoint x0 x1 x2) := by
  intro x0 x1 x2 w h; cases h
theorem attestation : ∀ x0 x1 x2, Statement (.attestation x0 x1 x2) := by
  intro x0 x1 x2 w h; cases h
theorem debuggerAttach : ∀ x0 x1 x2, Statement (.debuggerAttach x0 x1 x2) := by
  intro x0 x1 x2 w h; cases h
theorem replayCompletions : ∀ x0 x1 x2, Statement (.replayCompletions x0 x1 x2) := by
  intro x0 x1 x2 w h; cases h
theorem doorbell : ∀ x0 x1, Statement (.doorbell x0 x1) := by
  intro x0 x1 w h; cases h
theorem hiverWrite : ∀ x0 x1, Statement (.hiverWrite x0 x1) := by
  intro x0 x1 w h; cases h
theorem flagFileGrant : ∀ x0, Statement (.flagFileGrant x0) := by
  intro x0 w h; cases h
theorem flagFileSave : ∀ x0, Statement (.flagFileSave x0) := by
  intro x0 w h; cases h
theorem walkPointReached : ∀ x0 x1, Statement (.walkPointReached x0 x1) := by
  intro x0 x1 w h; cases h
theorem taskDispatch : ∀ x0 x1 x2, Statement (.taskDispatch x0 x1 x2) := by
  intro x0 x1 x2 w h; cases h
theorem contextRestore : ∀ x0, Statement (.contextRestore x0) := by
  intro x0 w h; cases h
theorem taskRetirement : ∀ x0 x1, Statement (.taskRetirement x0 x1) := by
  intro x0 x1 w h; cases h
theorem strikeReport : ∀ x0, Statement (.strikeReport x0) := by
  intro x0 w h; cases h
theorem eccUncorrectable : ∀ x0, Statement (.eccUncorrectable x0) := by
  intro x0 w h; cases h
theorem debugStep : ∀ x0, Statement (.debugStep x0) := by
  intro x0 w h; cases h
theorem debugWriteState : ∀ x0, Statement (.debugWriteState x0) := by
  intro x0 w h; cases h
theorem hostWake : ∀ x0, Statement (.hostWake x0) := by
  intro x0 w h; cases h
theorem ualinkTraining : ∀ x0 x1, Statement (.ualinkTraining x0 x1) := by
  intro x0 x1 w h; cases h
theorem ualinkLinkDown : ∀ x0, Statement (.ualinkLinkDown x0) := by
  intro x0 w h; cases h
theorem tenantJoin : ∀ x0 x1, Statement (.tenantJoin x0 x1) := by
  intro x0 x1 w h; cases h
theorem tenantTeardown : ∀ x0, Statement (.tenantTeardown x0) := by
  intro x0 w h; cases h
theorem tenantCreation : ∀ x0 x1 x2 x3 x4, Statement (.tenantCreation x0 x1 x2 x3 x4) := by
  intro x0 x1 x2 x3 x4 w h; cases h
theorem linkGroupRetrain : ∀ x0, Statement (.linkGroupRetrain x0) := by
  intro x0 w h; cases h
theorem firmwareUpdate : ∀ x0, Statement (.firmwareUpdate x0) := by
  intro x0 w h; cases h
theorem joinedQuartetStart : Statement .joinedQuartetStart := by
  intro w h; cases h
theorem faultQueueCopy : Statement .faultQueueCopy := by
  intro w h; cases h
theorem translationInstall : Statement .translationInstall := by
  intro w h; cases h
theorem copyCommandStart : Statement .copyCommandStart := by
  intro w h; cases h
theorem phaseFinal : Statement .phaseFinal := by
  intro w h; cases h
theorem quietPoint : Statement .quietPoint := by
  intro w h; cases h
theorem coreResume : Statement .coreResume := by
  intro w h; cases h
theorem preemptionRequest : Statement .preemptionRequest := by
  intro w h; cases h
theorem contextSave : Statement .contextSave := by
  intro w h; cases h
theorem haltRetirement : Statement .haltRetirement := by
  intro w h; cases h
theorem kickPlacement : Statement .kickPlacement := by
  intro w h; cases h
theorem spilledKickEntersPool : Statement .spilledKickEntersPool := by
  intro w h; cases h
theorem crownTakeover : Statement .crownTakeover := by
  intro w h; cases h
theorem debugResume : Statement .debugResume := by
  intro w h; cases h
theorem debugStepExpiry : Statement .debugStepExpiry := by
  intro w h; cases h
theorem thermalPowerOff : Statement .thermalPowerOff := by
  intro w h; cases h
theorem trunkCycle : Statement .trunkCycle := by
  intro w h; cases h
theorem launchCompletion : Statement .launchCompletion := by
  intro w h; cases h
theorem planeLoad : Statement .planeLoad := by
  intro w h; cases h
theorem planeWordError : Statement .planeWordError := by
  intro w h; cases h

end Sys2Proof.Laws.Encoding
end

