-- ==== Sys2Proof/Tests/Slice0.lean ====
section
/-! SUPPORT. Tests of the model: words that the static checks refuse, words written out from the spec's encodings, single steps
with results worked out in the spec, and for each statement with hypotheses a state that meets them. -/

namespace Sys2Proof.Tests

open Sys2Proof Sys2Proof.Machine

set_option Elab.async false

/-! ## Words that are not well formed (R62, reason 6 of R74) -/

/-- No idle count, and a guard that is always true. -/
def hd : Head := ⟨0, false, 0⟩

/-- Every term of the list is refused. -/
def refusedAll (l : List Instr) : Bool := l.all fun i => !i.wf

/-- Section 1,023 and word index 4,095 have no name (R64). -/
theorem test_illformed_targets : refusedAll [.br hd 4095 0, .br hd 0 1023, .call hd 1 4095 0, .call hd 1 0 1023,
    .jsec hd (.num 1023), .jsecSteer hd .L (.num 1023), .loop hd 1 4095 0, .loop hd 1 0 1023, .loopx hd 1 1 1 4095 0,
    .loopx hd 1 1 1 0 1023] = true := by decide
/-- A LOOPX step is not 0 (R138). -/
theorem test_illformed_loopx_step : refusedAll [.loopx hd 1 1 0 0 0] = true := by decide
/-- MTS writes CIR, MXRET, TOL and FIJ only (R162). -/
theorem test_illformed_mts : refusedAll [.mts hd .ctime 1, .mts hd .clag 1, .mts hd .ctx 1, .mts hd .traprec 1, .mts hd .ftab 1,
    .mts hd (.kend 0) 1] = true := by decide
/-- A region ends within local store, and a double buffer has two equal halves (R182). -/
theorem test_illformed_phdecl : refusedAll [.phdecl hd 0 16383 1 31 31 false false, .phdecl hd 0 0 0 31 31 true false] = true := by
  decide
/-- Banks 62 and 63 have no name (R66). -/
theorem test_illformed_banks : refusedAll [.mma hd 62 ⟨.ls 0, .ls 1, 0, false, 0, 7, 7, 15, 0, false⟩,
    .mmas hd 63 ⟨.ls 0, .ls 1, 0, false, 0, 7, 7, 15, 0, false⟩, .mdrain hd 62 0 0 0 0 0, .mchk hd (.bank 62) false,
    .mloc hd (.bank 63) 1, .mfix hd (.bank 62) 1, .mretry hd (.bank 62), .acband hd 62 0, .acrd hd 62 0 0 0 0 0,
    .acwr hd 62 0 0 0 0, .aczero hd 62 0 0 0] = true := by decide
/-- A run of banks ends at bank 61 (R283). -/
theorem test_illformed_bank_runs : refusedAll [.acalloc hd 61 false 1, .acfree hd 0 62] = true := by decide
/-- Rows stay within the bank (R282). -/
theorem test_illformed_rows : refusedAll [.acrd hd 0 0 7 0 1 0, .acwr hd 0 0 0 0 57, .aczero hd 0 6 0 9, .mdrain hd 0 0 7 0 8 0] = true := by
  decide
/-- Scales stay within the scale buffer (R286). -/
theorem test_illformed_scld : refusedAll [.scld hd 0 1 255] = true := by decide
/-- A vector word's reserved bits, unused streams, fixed steps and format classes (R187, R188, R192). -/
theorem test_illformed_vector : refusedAll [.vadd hd ⟨1, 1, 0, 0, 0, 0, 0, 0, 0x10⟩, .vadd hd ⟨1, 6, 0, 0, 0, 0, 0, 0, 0⟩,
    .vadd hd ⟨1, 1, 0, 0, 0, 0, 0, 0, 8⟩, .vfma hd ⟨1, 7, 0, 0, 0, 0, 0, 0, 0⟩, .vabs hd ⟨1, 1, 0, 0, 0, 0, 1, 0, 0⟩,
    .vabs hd ⟨1, 1, 0, 0, 0, 0, 0, 1, 0⟩, .vclamp hd ⟨1, 1, 0, 0, 0, 0, 0, 1, 0⟩, .vrsum hd ⟨1, 1, 0, 0x100, 0, 0, 0, 0, 0x10⟩,
    .vrsum hd ⟨1, 1, 0, 0, 0, 0, 0, 0, 0x70⟩, .vcmp hd ⟨1, 1, 0, 0, 0, 0, 0, 0, 6⟩, .viota hd ⟨1, 1, 0, 0, 1, 0, 0, 0, 0⟩] = true := by
  decide
theorem test_illformed_vector_mods : refusedAll [.vsel hd ⟨1, 14, 0, 0, 0, 0, 0, 0, 0⟩, .vsel hd ⟨1, 1, 0, 0, 0, 0, 0, 0, 1⟩,
    .vcompact hd ⟨1, 1, 0, 0, 0, 0, 0, 0, 16⟩, .vtopk hd ⟨1, 1, 0, 0, 0, 0, 0, 0, 64⟩, .vgather hd ⟨1, 1, 0, 0, 0, 0, 0, 0, 21⟩,
    .vbcast hd ⟨1, 1, 0, 0, 0, 0, 0, 0, 16⟩, .vand hd ⟨1, 1, 0, 0, 0, 0, 0, 0, 0⟩, .vrand hd ⟨1, 2, 0, 0, 0, 0, 0, 0, 0⟩,
    .vcbx hd ⟨1, 1, 0, 0, 0, 0, 0, 0, 0⟩, .vcbx hd ⟨1, 14, 0, 0, 0, 0, 0, 0, 4⟩] = true := by decide
/-- A count of 0 units (R210, R223). -/
theorem test_illformed_counts : refusedAll [.cpin hd ⟨0, 0, 0, 0, 0, 0, 0⟩, .cpin2 hd ⟨0, 0, 0, 0, 0, 0, 0⟩ 0 0,
    .gather hd ⟨0, 0, 0, 0, 0, 0, 0⟩ 0 0, .pfetch hd 0 0 0 0, .pfpin hd 0 0 0 0, .pfunpin hd 0 0 0, .discard hd 0 0 0 0] = true := by
  decide
/-- Patch data has an element of whole bytes (R249). -/
theorem test_illformed_patches : refusedAll [.pst hd ⟨0, 0, 0, 0, 0, 14, 0, 0⟩, .padd hd ⟨0, 0, 0, 0, 0, 15, 0, 0⟩ false,
    .pmax hd ⟨0, 0, 0, 0, 0, 14, 0, 0⟩, .pmin hd ⟨0, 0, 0, 0, 0, 14, 0, 0⟩, .pxor hd ⟨0, 0, 0, 0, 0, 14, 0, 0⟩,
    .por hd ⟨0, 0, 0, 0, 0, 14, 0, 0⟩, .pand hd ⟨0, 0, 0, 0, 0, 14, 0, 0⟩] = true := by decide
/-- Scopes, orders and operand values (R61, R257, R269, R270, R345). -/
theorem test_illformed_scopes : refusedAll [.ppub hd 0, .ppub hd 6, .fenceAcq hd 0, .fenceRel hd 6, .fenceAcqrel hd 7,
    .fset hd 0 (.imm 0) ⟨1, 1⟩, .fset hd 0 (.imm 0) ⟨0, 1⟩, .fset hd 0 (.imm 0) ⟨2, 0⟩, .fset hd 0 (.g 0) ⟨0, 0⟩,
    .fadd hd 1 0 (.imm 0) ⟨3, 6⟩, .fwait hd 1 0 (.imm 0) ⟨2, 1⟩, .fget hd 1 0 ⟨3, 1⟩, .bara hd 0 1, .barw hd 1 0 (.imm 0) 6] = true := by
  decide
/-- Formats and modes of the conversions (R98, R100). -/
theorem test_illformed_conversions : refusedAll [.cvt hd 1 (.g 1) false 14 1 0, .cvt hd 1 (.g 1) false 1 17 0,
    .cvt hd 1 (.g 1) false 1 2 4, .fclass hd 1 (.g 1) 7, .vcvt hd ⟨1, 1, 0, 0, 0, 0, 0, 0, 0xE0⟩, .vquant hd ⟨1, 1, 0, 0, 0, 0, 0, 0, 0x10⟩,
    .vdeq hd ⟨1, 1, 0, 0, 0, 0, 0, 0, 0⟩, .vbscl hd ⟨1, 1, 0, 0, 0, 0, 0, 0, 0x80⟩, .vpack hd ⟨1, 7, 0, 0, 0, 0, 0, 0, 0⟩,
    .vunpack hd ⟨1, 11, 0, 0, 0, 0, 0, 0, 4⟩] = true := by decide

/-! ## Words written out from the spec's encodings (R56, R60, R63 to R69) -/

-- Control, format B: the worked words of R138 and R182, and BR to word 5 of section 2.
theorem test_decode_loop : decodeTableWord 96 0x0800000500101C0000000000 = some (.loop hd 5 1 7) := by decide
theorem test_decode_phdecl : decodeTableWord 96 0x15000000002080001F107800 = some (.phdecl hd 2 0x200 0x1F 2 1 true true) := by decide
-- Scalar words, format A: OPC 0x20, FN 1, IDLE 3, guard !p2, D = g3, S1 = a1 (0x21), S2 = k7 (0xA7).
theorem test_decode_sub : decodeTableWord 96 0x2010E2_03_21_A7_000000000000 = some (.sub ⟨3, true, 2⟩ 3 (.a 1) (.k 7)) := by decide
-- Immediates, format I: ADDI g1, g2, -1.
theorem test_decode_addi : decodeTableWord 96 0x210000_01_02_FFFFFFFFFFFFFF = some (.addi hd 1 (.g 2) (-1)) := by decide
-- System registers: SPILL as in R164.
theorem test_decode_spill : decodeTableWord 96 0x1704C0C22503000000000000 = some (.spill ⟨19, false, 0⟩ 2 5 3) := by decide
-- Vector words, format V (R65).
theorem test_decode_vadd : decodeTableWord 96 0x600000004121000100110000 = some (.vadd hd ⟨4, 1, 2, 0x100, 0, 0x100, 1, 0x100, 0⟩) := by decide
theorem test_decode_vrand : decodeTableWord 96 0x6604C0001181000000000002 = some (.vrand ⟨19, false, 0⟩ ⟨1, 1, 8, 0x100, 0, 0, 0, 0, 2⟩) := by decide
-- Matrix, accumulator and codebook words, format M (R66).
theorem test_decode_mma : decodeTableWord 96 0x4000001400843F3C00002880 = some (.mma hd 5 ⟨.ls 0, .ls 2, 1, false, 0, 7, 7, 15, 40, true⟩) := by decide
theorem test_decode_acrd : decodeTableWord 96 0x5300001440001F0000000082 = some (.acrd hd 5 4 3 7 0x20 2) := by decide
theorem test_decode_cbld : decodeTableWord 96 0x800000E1230F0E0000000000 = some (.cbld hd 1 3 15 7) := by decide
-- Copies and handles, format C (R67); patches, format P (R68); flags and the scheduler, format S (R69).
theorem test_decode_cpin : decodeTableWord 96 0x900000090C10000080004000 = some (.cpin hd ⟨1, 2, 3, 0x40, 2, 1, 0⟩) := by decide
theorem test_decode_padd : decodeTableWord 96 0xB01000191000000CA0000000 = some (.padd hd ⟨3, 2, 4, 0, 0, 3, 5, 0⟩ false) := by decide
theorem test_decode_pmrg : decodeTableWord 96 0xB600000800000000C7010000 = some (.pmrg hd 1 1 6 7) := by decide
theorem test_decode_fset : decodeTableWord 96 0xC10000095000000000000800 = some (.fset hd 9 (.imm 1) ⟨2, 2⟩) := by decide
theorem test_decode_kick : decodeTableWord 96 0xC70000000019200000000800 = some (.kick hd 3 4 true) := by decide
theorem test_decode_chkerr : decodeTableWord 96 0xE00000000038000000000800 = some (.chkerr hd 7 true) := by decide
theorem test_decode_cvt : decodeTableWord 96 0xD00000040301020000000000 = some (.cvt hd 4 (.g 3) false 1 2 0) := by decide
-- Reserved bits and unassigned functions are refused.
theorem test_decode_reserved : decodeTableWord 96 0x210001_01_02_FFFFFFFFFFFFFF = some (.addi ⟨0, false, 1⟩ 1 (.g 2) (-1)) ∧
    decodeTableWord 96 0x211000_01_02_FFFFFFFFFFFFFF = none ∧ decodeTableWord 96 0x200000_03_21_A7_000000000001 = none := by decide
-- A specifier of a class that the word does not take: ADD with a p source (0x40).
theorem test_decode_class : decodeTableWord 96 0x200000_03_40_01_000000000000 = none := by decide

/-! ## States for the witnesses and the steps below -/

/-- Every cluster runs, and one of them is about to issue, with no plane loaded: its section is free. The phase is not protected, so
that every write fits the rollback area. -/
def base (c : Cluster) : State :=
  let r := State.reset
  let k := { ClusterSt.fresh with mode := .running }
  { r with core := { r.core with s := k, l := k, m := k, w := k, issuing := some c, protectedPhase := false } }

/-- A state with another core. -/
def onCore (s : State) (f : Core → Core) : State := { s with core := f s.core }

/-- A g register of a cluster set. -/
def withG (s : State) (c : Cluster) (n : BitVec 5) (v : Word) : State := s.setCl c ((s.core.cl c).writeG n v)

/-- An a register of a cluster set. -/
def withA (s : State) (c : Cluster) (n : BitVec 4) (v : BitVec 32) : State := s.setCl c ((s.core.cl c).writeA n v)

/-- The shadow context runs. -/
def inHandler (s : State) : State :=
  onCore s fun c => { c with shadow := { c.shadow with active := true, p := c.shadow.p.set 0 true }, freeze := [.handler] }

/-- The header of a section with no waits (R75, R76). -/
def headerOf (kind : Nat) (sync : Bool) (sec : BitVec 10) (len : BitVec 12) : Header :=
  let h : Header := 10#4 ++ BitVec.ofNat 3 kind ++ bit1 sync ++ sec ++ 0x3FF#10 ++ 0x3FF#10 ++ 0x3FF#10 ++ len ++ 0#4
  h ||| BitVec.ofNat 64 h.nibbles

/-- A section of NOP words as it stands in a plane. -/
def section_ (kind : Nat) (sync : Bool) (sec : BitVec 10) (len : BitVec 12) : List Byte :=
  toBytes 8 (headerOf kind sync sec len).toNat ++
    (List.replicate len.toNat (toBytes 12 0x010000000000000000000000)).flatten

/-- The active plane replaced. -/
def withPlane (s : State) (p : List Byte) : State := { s with planes := s.planes.setIfInBounds s.core.active p }

/-- S stands at word 0 of its section 0 of three words; sections 5 (free, four words), 6 (joined, two words) and 1,022 follow. -/
def inPlane : State :=
  withPlane (base .S) (section_ 0 false 0 3 ++ section_ 0 false 5 4 ++ section_ 0 true 6 2 ++ section_ 0 false 1022 1)

/-- All clusters stand at word 0 of joined sections with number 0. -/
def inJoined : State :=
  let p := section_ 0 true 0 2 ++ section_ 1 true 0 2 ++ section_ 2 true 0 2 ++ section_ 3 true 0 2
  onCore (withPlane (base .S) p) fun c =>
    { c with l := { c.l with hdr := 32 }, m := { c.m with hdr := 64 }, w := { c.w with hdr := 96 } }

/-- S runs the second of two sections with number 7: a BR to number 7 goes to the first (R82), and a LOOP stays (R138). -/
def inSecond : State :=
  onCore (withPlane (base .S) (section_ 0 false 7 1 ++ section_ 0 false 7 3)) fun c => { c with s := { c.s with sec := 7, hdr := 20 } }

theorem test_first_section :
    (match exec (.br hd 0 7) inSecond with | .next t => (t.core.s.hdr, t.core.s.any) | _ => (99, false)) = (0, true) ∧
      (match exec (.loop hd 0 2 7) inSecond with | .next t => (t.core.s.hdr, t.core.s.word, t.core.s.any) | _ => (99, 0, false)) =
        (20, 2, false) := by decide +kernel

/-! ## Witnesses: words, steps and the scalar families -/

theorem witness_DecodeEncode : WellFormed (.sub ⟨3, true, 2⟩ 3 (.a 1) (.k 7)) ∧
    encode (.sub ⟨3, true, 2⟩ 3 (.a 1) (.k 7)) = some 0x2010E2_03_21_A7_000000000000 ∧
    WellFormed (.padd hd ⟨31, 15, 31, 255, 4095, 13, 31, 31⟩ true) ∧
    (encode (.padd hd ⟨31, 15, 31, 255, 4095, 13, 31, 31⟩ true)).isSome = true := by decide

/-- Opcode 0 with another bit set, function 1 of 0x21, a product word in S; and the largest value of each status field. -/
theorem witness_DecodeFaults :
    ((1 : IWord) ≠ 0 ∧ opFns ((1 : IWord).extractLsb' 88 8).toNat = 0) ∧
    (let w : IWord := 0x211000000000000000000000;
      w ≠ 0 ∧ opFns (w.extractLsb' 88 8).toNat ≠ 0 ∧ (opFns (w.extractLsb' 88 8).toNat).testBit (w.extractLsb' 84 4).toNat = false) ∧
    (let w : IWord := 0x400000000000000000000000;
      w ≠ 0 ∧ (opFns (w.extractLsb' 88 8).toNat).testBit (w.extractLsb' 84 4).toNat = true ∧
        opCluster (w.extractLsb' 88 8).toNat .S = false) ∧
    ((255 : Nat) < 256 ∧ (255 : Nat) < 256 ∧ (15 : Nat) < 16 ∧ (127 : Nat) < 128) := by decide

theorem witness_StepRunsWord :
    (let s := State.reset.withFetchWord 96 0x2010E2_03_21_A7_000000000000;
      s.boot = .running ∧ s.core.issuing = some .S ∧ s.core.shadow.active = false ∧
        decodeFor .S (planeWord s.activePlane (s.core.cl .S).hdr (s.core.cl .S).word.toNat) = .ok (.sub ⟨3, true, 2⟩ 3 (.a 1) (.k 7))) ∧
    (let s := State.reset.withFetchWord 96 0x110000000000000000000000;
      s.boot = .running ∧ s.core.issuing = some .S ∧ s.core.shadow.active = true ∧
        decodeFor .S (planeWord s.activePlane s.core.shadow.hdr s.core.shadow.word.toNat) = .ok (.eret hd)) := by
  refine ⟨⟨by decide, by decide, by decide, rfl⟩, by decide, by decide, by decide, rfl⟩

theorem witness_StepRunsPlacedWord :
    decodeWord 0x600000004121000100110000 = .ok (.vadd hd ⟨4, 1, 2, 0x100, 0, 0x100, 1, 0x100, 0⟩) := by rfl

theorem witness_StepContinues : State.reset.boot = .running ∧
    (let s := { State.reset with boot := .off }; s.boot ≠ .running ∧ s.agenda = []) ∧
    (let s := { State.reset with boot := .stopped 2 1, agenda := [(0, .trunkCycle)] }; s.boot ≠ .running ∧ s.agenda ≠ []) := by
  decide

theorem witness_IntegerWordsComplete : (base .S).Issues hd 0x20 .both ∧ (base .W).Issues hd 0x20 .both ∧
    inJoined.Issues hd 0x20 .both ∧ (inHandler (base .S)).Issues hd 0x20 .both := by decide

theorem witness_ImmediateWordsComplete : (base .L).Issues hd 0x21 .both ∧ (base .M).Issues hd 0x22 .both ∧
    (base .W).Issues hd 0x23 .both ∧ inJoined.Issues hd 0x24 .both := by decide

/-- A count of leading zeros below 64 and of 64. -/
theorem witness_clz : clzFrom (1 : Word) 64 = 63 ∧ clzFrom (0 : Word) 64 = 64 ∧ clzFrom (BitVec.intMin 64) 64 = 0 := by decide

theorem witness_ComparesAndPredicatesComplete : (base .S).Issues hd 0x25 .both ∧ (base .L).Issues hd 0x29 .both := by decide

theorem witness_FloatWordsComplete : (base .S).Issues hd 0x26 .both ∧ (base .L).Issues hd 0xD0 .both ∧ inJoined.Issues hd 0xD7 .both := by
  decide

theorem witness_MovesComplete : (base .L).Issues hd 0x27 .noShadow ∧
    ((base .S).Issues hd 0x28 .both ∧ (base .S).core.shadow.active = false) ∧
    ((inHandler (base .S)).Issues hd 0x28 .both ∧ (inHandler (base .S)).core.shadow.active = true) := by decide

theorem witness_SystemRegisterWordsComplete :
    ((base .S).Issues hd 0x13 .both ∧ SysReg.kend 5 ≠ .traprec) ∧
    ((inHandler (base .S)).Issues hd 0x13 .both ∧ (inHandler (base .S)).core.shadow.active = true) ∧
    ((base .S).Issues hd 0x14 .both ∧ (base .S).core.shadow.active = false ∧ ∃ n, SysReg.tol 7 = .tol n) ∧
    ((inHandler (base .S)).Issues hd 0x14 .both ∧ (inHandler (base .S)).core.shadow.active = true ∧ (SysReg.cir = .cir ∨ SysReg.cir = .mxret)) ∧
    ((base .S).core.shadow.active = false ∧ ¬((∃ n, SysReg.cir = .tol n) ∨ SysReg.cir = .fij)) ∧
    (¬((∃ n, SysReg.traprec = .tol n) ∨ SysReg.traprec = .fij) ∧ ¬(SysReg.traprec = .cir ∨ SysReg.traprec = .mxret)) := by
  refine ⟨by decide, by decide, ⟨by decide, by decide, 7, rfl⟩, by decide, ⟨by decide, ?_⟩, ?_, by decide⟩ <;> simp

/-- A WAITT that is met (t + 1) and one that is not (t + 2). -/
theorem witness_ClockAndIdleWordsComplete : (inHandler (base .S)).Issues hd 0x01 .both ∧ inPlane.IssuesFree hd 0x02 ∧
    (base .S).Issues hd 0x0E .both ∧ (base .W).Issues hd 0x0F .both ∧
    (inPlane.IssuesFree hd 0x0A ∧ inPlane.ctime + 1 ≤ inPlane.ctime + 1 + hd.idle.toNat ∧
      ¬(inPlane.ctime + 2 ≤ inPlane.ctime + 1 + hd.idle.toNat)) ∧
    inPlane.IssuesFree hd 0x0B ∧ inPlane.IssuesFree hd 0x0C ∧ inPlane.IssuesFree hd 0x0D := by decide

/-- In S, section 0 of length 3: targets at words 2 and 3 of the own section, 3 and 4 of section 5, 0 and 1 of section 6, and
section 9, which is missing. -/
theorem witness_TransfersComplete : inPlane.IssuesFree hd 0x03 ∧ inPlane.IssuesFree hd 0x05 ∧
    (let i := Issue.of inPlane hd 0x03;
      (findSection inPlane.activePlane i.c 0).map (·.1) = some i.hdr ∧ (findSection inPlane.activePlane i.c 0).map (·.2.len) = some 3 ∧
        findSection inPlane.activePlane i.c 9 = none ∧ i.hdr ≠ 44 ∧ i.hdr ≠ 100) ∧
    findSection inPlane.activePlane .S 5 = some (44, headerOf 0 false 5 4) ∧
    ((headerOf 0 false 5 4).len ≤ (4 : BitVec 12).toNat ∧ (3 : BitVec 12).toNat < (headerOf 0 false 5 4).len ∧
      (headerOf 0 false 5 4).sync = false) ∧
    findSection inPlane.activePlane .S 6 = some (100, headerOf 0 true 6 2) ∧
    ((headerOf 0 true 6 2).len ≠ 0 ∧ (1 : BitVec 12).toNat < (headerOf 0 true 6 2).len ∧ (headerOf 0 true 6 2).sync = true) := by decide +kernel

/-- Packed targets, and section numbers, at the ends of their ranges. -/
theorem witness_TransfersComplete_registers :
    (let s := withG inPlane .S 1 (BitVec.ofNat 64 (2 ^ 22 - 1));
      s.IssuesFree hd 0x04 ∧ s.IssuesFree hd 0x06 ∧ (s.readG (Issue.of s hd 0x04) 1).toNat < 2 ^ 22) ∧
    (let s := withG inPlane .S 1 (BitVec.ofNat 64 (2 ^ 22)); s.IssuesFree hd 0x04 ∧ 2 ^ 22 ≤ (s.readG (Issue.of s hd 0x04) 1).toNat) ∧
    (let s := withG inPlane .S 1 1022;
      s.IssuesFree hd 0x07 ∧ findSection s.activePlane .S 1022 = some (132, headerOf 0 false 1022 1) ∧
        s.readG (Issue.of s hd 0x07) 1 = (1022 : BitVec 10).setWidth 64 ∧ (1022 : BitVec 10) ≠ 0x3FF) ∧
    (let s := withG inPlane .S 1 1023; s.IssuesFree hd 0x07 ∧ 1023 ≤ (s.readG (Issue.of s hd 0x07) 1).toNat) := by decide +kernel

/-- A loop counter of 1 (not taken) and 0 (taken, in g0); a LOOPX at its last turn and at its end; a steer that is free to be
written, and one that must wait. -/
theorem witness_LoopsAndSteersComplete :
    (inPlane.IssuesFree hd 0x08 ∧ 0 = (Issue.of inPlane hd 0x08).at_.sec ∧ (2 : BitVec 12).toNat < (inPlane.header .S).len) ∧
    ((withG inPlane .S 1 1).readG (Issue.of (withG inPlane .S 1 1) hd 0x08) 1 - 1 = 0 ∧ inPlane.readG (Issue.of inPlane hd 0x08) 0 - 1 ≠ 0) ∧
    (let s := withG inPlane .S 1 4;
      s.IssuesFree hd 0x09 ∧ (s.core.readK 2 + (3 : BitVec 16).setWidth 64).toNat < (s.readG (Issue.of s hd 0x09) 1).toNat ∧
        ¬((s.core.readK 2 + (4 : BitVec 16).setWidth 64).toNat < (s.readG (Issue.of s hd 0x09) 1).toNat)) ∧
    (inPlane.IssuesFree hd 0x07 ∧ (Issue.of inPlane hd 0x07).c = .S ∧ (inPlane.core.cl .M).steer = none) ∧
    (let s := inPlane.setCl .M { inPlane.core.cl .M with steer := some .park };
      s.IssuesFree hd 0x07 ∧ (Issue.of s hd 0x07).c = .S ∧ (s.core.cl .M).steer ≠ none) := by decide +kernel

theorem witness_TrapsComplete : inPlane.core.freeze = [] ∧ inPlane.core.shadow.active = false ∧ inPlane.faultBuf.length < 512 ∧
    inPlane.Issues hd 0x10 .both ∧ inPlane.Issues hd 0x12 .noShadow ∧ inPlane.debugger ≠ some inPlane.core.tenant ∧
    (findSection inPlane.activePlane .S 1022).isSome = true ∧ (findSection (base .S).activePlane .S 1022).isSome = false := by decide +kernel

theorem witness_ReturnFromHandler :
    (let s := inHandler inPlane;
      s.core.shadow.active = true ∧ s.core.shadow.readP hd.psel ≠ hd.neg ∧ s.core.handling.all (fun f => f.hold.isNone) = true ∧
        s.core.faultQ = []) ∧ inPlane.core.shadow.active = false := by decide +kernel

/-! ## Witnesses: local store, engines and the vector and matrix units -/

/-- The last aligned place of a byte and of eight bytes; -1; one byte past the end; and an odd address. -/
theorem witness_ScalarAccessesComplete :
    ((base .S).Issues hd 0x2A .noShadow ∧ (base .S).Passes (Issue.of (base .S) hd 0x2A) 3 [⟨1, 0, true, 4194303, 1, 1, false⟩]) ∧
    ((base .S).Issues hd 0x2B .noShadow ∧ (base .S).Passes (Issue.of (base .S) hd 0x2B) 3 [⟨1, 0, false, 4194296, 8, 8, false⟩]) ∧
    (let x := fun (a : BitVec 32) (off : BitVec 32) =>
        (((withA (base .S) .S 1 a).readA (Issue.of (withA (base .S) .S 1 a) hd 0x2A) 1).toNat : Int) + off.toInt;
      x 0 (-1) < 0 ∧ (0 ≤ x 4194303 0 ∧ 4194304 < x 4194303 0 + 2) ∧ (0 ≤ x 0 1 ∧ x 0 1 + 2 ≤ 4194304 ∧ x 0 1 % 2 ≠ 0) ∧
        (x 4194302 0 + 2 ≤ 4194304 ∧ x 4194302 0 % 2 = 0)) := by decide +kernel

/-- The last part of a word of two segments of FP32, and a reduction into BF16 at an even address. -/
theorem witness_VectorActs :
    let j : VJob := { (default : VJob) with op := .cvt, cnt := 2, ef := 1, da := 2, mod := 0x20 }
    1 < j.cnt ∧ j.ef < 16 ∧ Fmt.ofCode j.ef = some .f32 ∧ Fmt.ofCode (j.mod / 16 % 16) = some .bf16 ∧ j.mode ≠ .rneEf ∧
      j.da % Fmt.bf16.bytes = 0 := by decide

/-- A full group of 32; the last element of a row of K 256; an FP64 product of a pair of banks, and one in a register. -/
theorem witness_ProductActs :
    (List.replicate 32 (Val.ofInt 1) ≠ [] ∧ (List.replicate 32 (Val.ofInt 1)).length ≤ 32) ∧ (255 : Nat) < 256 ∧
    (let p : Prod := { (default : Prod) with f64 := true, pair := true, m := 64, n := 64 };
      p.m ≤ 64 ∧ p.n ≤ 64 ∧ p.pair = (p.f64 && !p.mr && decide (32 < p.n)) ∧ (p.f64 = true → p.mr = true → p.n ≤ 32)) ∧
    (let p : Prod := { (default : Prod) with f64 := true, mr := true, m := 8, n := 32 };
      p.pair = (p.f64 && !p.mr && decide (32 < p.n)) ∧ (p.f64 = true → p.mr = true → p.n ≤ 32) ∧ fijHits (base .M).core.fij p = false ∧
        ((base .M).core.mem .mr).wf = true) := by decide +kernel

-- 2 times 3 added to a cell of 1, in FP32, is 7 (R97).
theorem test_cell : convertTo .f32 (cellOf false (.ofInt 1) [.ofInt 2] [.ofInt 3]) .rne false = 0x40E00000 := by decide +kernel

/-- A sign bit that is set and one that is not; a clean and a poisoned line. -/
theorem witness_LoadActs : (0 : Nat) ≤ 3 ∧ (3 : Nat) ≤ 3 ∧ 2 ^ (8 * 2 ^ 0 - 1) ≤ 0x80 ∧ ¬(2 ^ (8 * 2 ^ 0 - 1) ≤ 0x7F) := by decide

/-- A write of a whole line, and of part of one. -/
theorem witness_WriteActs : (let bs := List.replicate 64 (1 : Byte); (63 : Nat) < bs.length ∧
      (∀ x, x = 64 → 64 ≤ x / Mem.ls.unitBytes * Mem.ls.unitBytes ∧ x / Mem.ls.unitBytes * Mem.ls.unitBytes + Mem.ls.unitBytes ≤ 64 + bs.length)) ∧
    ((63 : Nat) < 64 ∨ 64 + 64 ≤ (63 : Nat)) ∧ Mem.acc ≠ .ls ∧ Memory.wf [(64, 1), (65, 2)] = true := by
  refine ⟨⟨by decide, fun x h => by subst h; decide⟩, by decide, by decide, by decide⟩

/-- A declared region of 256 bytes at 0 that may be written. -/
def regioned : State := onCore (base .S) fun c => { c with regions := c.regions.set 3 (some (declared 0 0 31 31 false true)) }

/-- An access to the region is still to be made. -/
def regionBusy : State := onCore regioned fun c => { c with calendar := [⟨5, 0, true, 0, 1, false, ⟨.S, 0, 0⟩⟩] }

theorem witness_PhaseWordsComplete :
    ((base .S).Issues hd 0x15 .noShadow ∧
      (base .S).core.phdeclReady (base .S).ctime 0 (some (declared 16383 0 31 31 false false)) = true ∧
      (base .S).core.overlapped 0 (declared 16383 0 31 31 false false) = none ∧ (base .S).core.phdeclReady (base .S).ctime 0 none = true) ∧
    (regioned.Issues hd 0x15 .noShadow ∧ regioned.core.phdeclReady regioned.ctime 0 (some (declared 0 0 31 0 false false)) = true ∧
      regioned.core.overlapped 0 (declared 0 0 31 0 false false) = some 3) ∧
    (regioned.Issues hd 0x16 .noShadow ∧ regioned.core.phswReady regioned.ctime = true) ∧
    (regionBusy.IssuesFree hd 0x16 ∧ regionBusy.core.phswReady regionBusy.ctime = false) := by decide +kernel

/-- A state with token q2 in a given state. -/
def withToken (t : TokState) : State := onCore (base .S) fun c => c.writeQ 2 ⟨t, 1, 0x100⟩

theorem witness_SpillWordsComplete :
    ((base .S).Issues hd 0x17 .noShadow ∧ ((base .S).core.readQ 2).state = .free ∧ (base .S).core.spillFree ≤ (base .S).ctime ∧
      (base .S).Passes (Issue.of (base .S) hd 0x17) 3 (imagePlan 2 true (4194304 - 16384)) ∧ (base .S).core.poison = []) ∧
    ((withToken .held).Issues hd 0x17 .noShadow ∧ ((withToken .held).core.readQ 2).state ≠ .free) ∧
    ((withToken .held).Issues hd 0x18 .noShadow ∧ ((withToken .held).core.readQ 2).state = .held ∧
      (withToken .held).Fits (unitsOf .mr (16384 * 7) 16384) ∧
      (withToken .held).Passes (Issue.of (withToken .held) hd 0x18) 3 (imagePlan 1 false ((withToken .held).core.readQ 2).addr.toNat)) ∧
    (((withToken .spilling).core.readQ 2).state = .spilling ∧ ((withToken .filling).core.readQ 2).state = .filling) ∧
    ((base .S).Issues hd 0x19 .noShadow ∧ (base .S).Issues hd 0x1A .noShadow) := by decide +kernel

/-- Banks 0 and 61 are allocated, and every band belongs to drain group 2. -/
def allocated : State := onCore (base .M) fun c =>
  { c with allocated := (c.allocated.set 0 true).set 61 true, owner := (c.owner.set 0 0xAA).set 61 0xAA }

theorem witness_AccumulatorWordsComplete :
    ((base .M).Issues hd 0x50 .noShadow ∧ (base .M).Fits (unitsOf .acc (16384 * 61) 16384)) ∧
    (allocated.Issues hd 0x51 .noShadow ∧ (∀ j ≤ (0 : BitVec 6).toNat, allocated.core.bankBusy (61 + j) = false)) ∧
    (allocated.Issues hd 0x52 .noShadow ∧ allocated.core.bankAllocated 61 = true) ∧
    (allocated.Issues hd 0x53 .noShadow ∧ allocated.core.bankBusy 61 = false ∧
      (∀ q < 4, 0 / 16 ≤ q → q ≤ (0 + 64 - 1) / 16 → bandOwner (allocated.core.bankOwner 61) q = 2) ∧
      allocated.Passes (Issue.of allocated hd 0x53) 2 (rowPlan 2 64 256 true (4194304 - 16384) 4)) ∧
    (allocated.Issues hd 0x54 .noShadow ∧ allocated.Fits (unitsOf .acc (16384 * 61 + 256 * 56) 2048) ∧
      allocated.Passes (Issue.of allocated hd 0x54) 2 (rowPlan 1 8 32 false 0 4)) ∧
    (allocated.Issues hd 0x55 .noShadow ∧ allocated.Fits (unitsOf .acc (16384 * 61) 2048)) ∧
    ((base .M).Issues hd 0x56 .noShadow ∧ (base .M).Fits (unitsOf .scale 0 16384) ∧
      (base .M).Passes (Issue.of (base .M) hd 0x56) 2 (rowPlan 1 64 256 false 0 1)) ∧
    ((base .M).core.bankAllocated 61 = false ∧ (base .M).Issues hd 0x52 .noShadow ∧ (base .M).Issues hd 0x53 .noShadow) := by
  decide +kernel

/-- Codebook bank 1 holds two entries of four bytes that came from a place. -/
def banked (src : CbSource) : State := onCore (base .M) fun c => { c with banks := c.banks.set 1 ⟨2, 4, false, src⟩ }

/-- An expansion from codebook bank 1 is still to be made: a VCBX segment. -/
def expanding : State := onCore (banked .none) fun c => { c with timeline := [⟨3, 1, .vec
  { id := 1, op := .cbx, cnt := 1, ef := 14, da := 0, ds := 0, aa := 0, as := 0, ba := 0, bs := 0, mod := 1, y := 0, bank := 1, ixw := 2,
    ebytes := 4, t := 0, at_ := ⟨.M, 0, 0⟩ } 0 0⟩] }

theorem witness_FormatAndCodebookWordsComplete :
    ((base .M).Issues hd 0x85 .noShadow ∧
      (let v : Word := 0x66000001; v.toNat < 2 ^ 32 ∧ v.getLsbD 1 = false ∧ (6 ≤ 6 ∨ 6 = 14)) ∧ ¬((0x100000000 : Word).toNat < 2 ^ 32)) ∧
    (let s := banked .none; s.Issues hd 0x80 .noShadow ∧ s.core.anyAct (Act.expands 1) = false ∧ s.core.loadingNow 1 = false ∧
      s.Fits (unitsOf .cb 32768 32768) ∧ s.Passes (Issue.of s hd 0x80) 2 (entryPlan 1 2 4 false (4194304 - 8))) ∧
    (expanding.Issues hd 0x80 .noShadow ∧ expanding.core.anyAct (Act.expands 1) = true) ∧
    (let s := banked .none; s.Issues hd 0x81 .noShadow ∧ (∀ e ∈ s.core.timeline, e.act.readsBank 1 = false)) ∧
    (let s := banked (.ls 64); s.Issues hd 0x82 .noShadow ∧ s.core.loadingNow 1 = false ∧
      s.Passes (Issue.of s hd 0x82) 2 (entryPlan 2 (s.core.bank 1).count (s.core.bank 1).ebytes true 0)) ∧
    (let s := banked (.ls 64); s.Issues hd 0x83 .noShadow ∧ s.core.anyAct (Act.expands 1) = false ∧ (s.core.bank 1).source = .ls 64 ∧
      s.Passes (Issue.of s hd 0x83) 2 (entryPlan 1 2 4 false 64)) ∧
    ((banked .none).Issues hd 0x83 .noShadow ∧ ((banked .none).core.bank 1).source = .none) ∧
    ((banked (.plane 7)).Issues hd 0x83 .noShadow ∧ ((banked (.plane 7)).core.bank 1).source = .plane 7) ∧
    (let s := banked (.ls 64); s.Issues hd 0x84 .noShadow ∧ s.core.loadingNow 1 = false ∧
      s.Passes (Issue.of s hd 0x84) 2 (entryPlan 1 2 4 false 64)) := by decide +kernel

theorem witness_FormatAndCodebookWordsComplete_no_copy : ∀ x, ((banked (.plane 7)).core.bank 1).source ≠ .ls x := by
  intro x h; exact absurd (show CbSource.plane 7 = .ls x from h) (by simp)

/-- VADD of two segments; and VCBX with a selector that its bank agrees with: one element of FP32 per entry. -/
theorem witness_VectorWordsComplete :
    (let v : VOps := ⟨2, 1, 2, 0x100, 0, 0x100, 1, 0x100, 0⟩;
      let i := Issue.of (base .M) hd VFn.add.opc;
      let j := vecJob .add v i ((base .M).advance i);
      let al := j.aligns (efSize (selEf ((base .M).core.readCb (field v.mod 0 2))));
      (base .M).Issues hd VFn.add.opc .noShadow ∧ v.cnt ≠ 0 ∧ (base .M).core.vecFree ≤ (base .M).ctime ∧
        (base .M).Passes i 1 (j.plan al.1 al.2)) ∧
    ((base .M).Issues hd VFn.gather.opc .noShadow ∧ (0 : BitVec 12) = 0) ∧
    (let sel : Word := 0x100001;
      (banked .none).core.loadingNow (selBank sel) = false ∧ (banked .none).core.selectorOk sel = true ∧
        selElems sel * efSize (selEf sel) = 2 ^ 2) := by decide +kernel

/-- Bank 5 is allocated, and entry 1 of the format table is a product of E4M3 by E4M3. -/
def forProducts : State := onCore (base .M) fun c => { c with allocated := c.allocated.set 5 true, ftab := c.ftab.set 1 0x44000001 }

/-- A product of the largest shape on its stamp; and one whose stamp is one cycle away. -/
theorem witness_ProductWordsComplete :
    let s := forProducts
    let o : ProdOps := ⟨.ls 0, .ls 2, 1, false, 0, 7, 7, 7, 0, true⟩
    let i := Issue.of s hd 0x40
    let e := s.core.ftab[(entryIx o s).toNat]'(by omega)
    let sel := s.core.readCb (entryCbs e)
    let a := operandOf o.a (entryAf e) sel 32 i s
    let b := operandOf o.b (entryBf e) sel 32 i s
    s.Issues hd 0x40 .noShadow ∧ effStamp o i (s.advance i) = BitVec.ofNat 24 s.ctime ∧ shapeReason e sel false 5 64 32 = 0 ∧
      s.core.bankAllocated 5 = true ∧ a.index = false ∧ b.index = false ∧ entryTensor e = false ∧ entryBlock e = false ∧
      s.Fits (unitsOf .acc (16384 * 5) 16384) ∧ s.core.mxFree ≤ s.ctime ∧ s.core.regPending 5 false = false ∧
      s.Passes i 2 (a.plan s.ctime 64 ++ b.plan s.ctime 64) ∧
      (let o1 := { o with stamp := 1 }; i.joined = false ∧ effStamp o1 i (s.advance i) ≠ BitVec.ofNat 24 s.ctime ∧
        (effStamp o1 i (s.advance i) - BitVec.ofNat 24 s.ctime).toNat < 2 ^ 23) := by decide +kernel

theorem witness_MatrixMovesComplete :
    let s := base .M
    s.Issues hd 0x43 .noShadow ∧ s.Issues hd 0x44 .noShadow ∧ s.Issues hd 0x45 .noShadow ∧ s.Issues hd 0x46 .noShadow ∧
      s.Issues hd 0x4C .noShadow ∧ s.core.regBusy 7 = false ∧ s.Fits (unitsOfPart 7 .whole) ∧ s.Fits (unitsOfPart 7 .diag) ∧
      s.Passes (Issue.of s hd 0x43) 2 (rowPlan 1 64 256 false 0 4) ∧ s.Passes (Issue.of s hd 0x44) 2 (rowPlan 2 1 256 true (4194304 - 256) 4) ∧
      s.Passes (Issue.of s hd 0x4C) 2 [⟨1, 5, false, 4194240, 64, 8, false⟩] := by decide +kernel

/-- Infinite lanes, but for one: a check skips every other line (R317). -/
def lanesBut (n : Nat) : List (Word × Word) := (List.replicate 64 (0x7FF0000000000000, 0)).set n (0, 0)

/-- The lanes of register 1 are infinite. -/
def skippedLines : State := onCore (base .M) fun c => { c with
  mrLanes := c.mrLanes.set 1 { Lanes.fresh with rl := lanesBut 64, rm := lanesBut 64, cl := lanesBut 64, cm := lanesBut 64 } }

/-- The lanes of row 2 and column 3 of register 1 are zero, and the cell where they meet holds 1.0. -/
def wrongCell : State := onCore (base .M) fun c => { c with
  mr := [(16384 + 512 + 14, 0x80), (16384 + 512 + 15, 0x3F)]
  mrLanes := c.mrLanes.set 1 { Lanes.fresh with rl := lanesBut 2, rm := lanesBut 2, cl := lanesBut 3, cm := lanesBut 3 } }

/-- A product into matrix register 1 is recorded for a retry, and its register has counted it. -/
def retried : State := onCore (base .M) fun c => { c with
  mxret := Prod.mxret { id := 1, opc := 0x42, mr := true, dest := 1, f64 := false, pair := false, m := 8, n := 8, k := 4, a := default
                        b := default, bank := 0, st := none, fti := 1, tol := 1, mcode := 0, ncode := 0, kcode := 0, stamp := 0, t := 0
                        at_ := ⟨.M, 0, 0⟩ }
  mrLanes := c.mrLanes.set 1 { Lanes.fresh with uc := 1 }
  retry := some { (default : Retry) with prod := { (default : Prod) with opc := 0x42, mr := true, dest := 1, m := 8, n := 8, k := 4 } } }

theorem witness_CheckWordsComplete :
    (let s := skippedLines; s.core.destSettled (.reg 1) (s.core.seq + 1) = true ∧ destMr (.reg 1) = true ∧ s.Issues hd 0x48 .noShadow ∧
      s.Issues hd 0x49 .noShadow ∧ s.core.shadow.active = false ∧ s.Issues hd 0x4A .noShadow ∧
      (s.core.checkAll (.reg 1)).1.rows = [] ∧ (s.core.checkAll (.reg 1)).1.cols = [] ∧ s.core.poison = []) := by decide +kernel

theorem witness_CheckWordsComplete_mismatch : (wrongCell.core.destSettled (.reg 1) (wrongCell.core.seq + 1) = true ∧ wrongCell.Issues hd 0x48 .noShadow ∧
      wrongCell.Issues hd 0x4A .noShadow ∧
      (wrongCell.core.checkAll (.reg 1)).1.rows = [2] ∧ (wrongCell.core.checkAll (.reg 1)).1.cols = [3]) := by decide +kernel

theorem witness_CheckWordsComplete_retry :
    (retried.Issues hd 0x4B .noShadow ∧ retried.core.destSettled (.reg 1) (retried.core.seq + 1) = true ∧ retried.core.mxFree ≤ retried.ctime ∧
      retried.core.mxret.getLsbD 63 = true ∧ retried.core.retNames true 1 = true ∧ (retried.core.lanesOf true 1).uc = 1 ∧ retried.core.retry.any (fun x => x.prod.dest = 1 ∧ retried.Fits x.prod.units) = true ∧
      retried.Fits (unitsOf .mr 16384 16384)) ∧
    ((base .M).Issues hd 0x4B .noShadow ∧ (base .M).core.mxFree ≤ (base .M).ctime ∧ (base .M).core.mxret.getLsbD 63 = false) := by
  decide +kernel

/-- A drain of eight rows of bank 61 that a check skips, and a row that does not agree with its lanes. -/
theorem witness_CheckWordsComplete_drain :
    (let s := allocated; s.Issues hd 0x47 .noShadow ∧ s.core.destSettled (.bank 61) (s.core.seq + 1) = true ∧
      s.core.bankAllocated 61 = true ∧ (∀ q < 4, 0 / 16 ≤ q → q ≤ (0 + 64 - 1) / 16 → bandOwner (s.core.bankOwner 61) q = 2) ∧
      s.Passes (Issue.of s hd 0x47) 2 (rowPlan 2 8 32 true 0 4)) ∧
    (let s := onCore allocated fun c => { c with accLanes := c.accLanes.set 61 { Lanes.fresh with rl := lanesBut 64 } };
      (s.core.checkDest false 61 (List.range 8) []).1.rows = [] ∧ (s.core.checkDest false 61 (List.range 8) []).1.cols = []) ∧
    (let s := onCore allocated fun c => { c with acc := [(16384 * 61 + 2, 0x80), (16384 * 61 + 3, 0x3F)] };
      (s.core.checkDest false 61 [0] []).1.rows ≠ []) := by decide +kernel

/-! ## Witnesses: copies, patches, ordering and the scheduler's words -/

/-- A handle to a page of 64 KiB of tensor 7, on the core's own die, with every right. -/
def handle (tier : BitVec 3) : Handle :=
  { valid := true, tier := tier, home := 0, psz := 0, pr := true, pp := true, pd := true, tenant := 0, tid := 7, fmt := 1, base := 0
    count := 1024, va := 0, phys := 0 }

/-- Tensor 7: 1,024 elements of FP32 at virtual address 0, with no records. -/
def tensor : Tensor :=
  { desc := { e3 := 1, e2 := 1, e1 := 1, e0 := 1024, baseva := 0, tid := 7, fmt := 1, lww := false, remote := false, reserved := 0 }
    tenant := 0, snap := none, foldLine := [], chain := [] }

/-- The handle in h3, and the tensor behind it. -/
def holding (c : Cluster) (tier : BitVec 3) : State := { onCore (base c) (fun c => c.writeH 3 (handle tier)) with tensors := [tensor] }

/-- A copy of one line to the last line of local store; its last line of the page; and a handle that is not valid. -/
theorem witness_CopyWordsComplete :
    let s := withA (withG (holding .L 0) .L 1 (64 * 1023)) .L 2 (4194304 - 64)
    let p := fun (rows : List (Nat × Nat)) (list : Option (Nat × Nat)) =>
      (⟨3, rows, list, (s.readA (Issue.of s hd 0x90) 2).toNat, 0, 0, 0⟩ : CopyPlan)
    s.Issues hd 0x90 .noShadow ∧ s.Issues hd 0x91 .noShadow ∧ s.Issues hd 0x92 .noShadow ∧
      s.copyFault (p [(64 * 1023, 64)] none) s.ctime = none ∧ s.core.copyHolds (p [(64 * 1023, 64)] none) s.ctime = false ∧
      (Issue.of s hd 0x90).joined = false ∧ (Issue.of s hd 0x90).retry = false ∧ s.Fits (unitsOf .ls 4194240 64) ∧
      s.copyFault (p [(0, 64)] (some (0, 4))) s.ctime = none ∧
      s.copyFault (p [(64 * 1024, 64)] none) s.ctime ≠ none ∧ (s.core.readH 4).valid = false := by decide +kernel

/-- The last line of local store is locked by a queued command, and L is held at its copy; and L in a joined section. -/
theorem witness_CopyWordsComplete_held :
    (let s := withA (holding .L 0) .L 2 (4194304 - 64)
     let q : CopyCmd := { id := 1, h := handle 0, lines := [(65535, 0)], region := 0, tag := 0, depth := 0, joined := false, issued := 0, start := none
                          base := 0, reqEnd := none, complete := none, done := false, grans := [], units := [], listBad := false, key := (0, 0), at_ := ⟨.L, 0, 0⟩ }
     let h := onCore s fun c => { c with copyQ := [q], l := { c.l with mode := .instrWait, wait := some .held } }
     h.Issues hd 0x90 .noShadow ∧ (Issue.of h hd 0x90).retry = true ∧ (Issue.of h hd 0x90).joined = false ∧
       h.core.copyHolds ⟨3, [(0, 64)], none, 4194240, 0, 0, 0⟩ h.ctime = true) ∧
    (let p := section_ 1 true 0 2
     let s := withPlane (holding .L 0) p
     s.Issues hd 0x90 .noShadow ∧ (Issue.of s hd 0x90).joined = true ∧ s.requestOpen s.ctime = false) := by decide +kernel

theorem witness_ResidencyWordsComplete :
    let s := holding .L 1
    let busy := onCore s fun c => c.setToken 15 (.busy 9)
    let done := onCore s fun c => c.setToken 15 (.done 16)
    s.Issues hd 0x93 .noShadow ∧ s.Issues hd 0x95 .noShadow ∧ s.Issues hd 0x97 .noShadow ∧ s.Issues hd 0x96 .noShadow ∧
      s.Issues hd 0x94 .noShadow ∧ s.unitsFault false 3 (15 * 4096) 1 = none ∧ s.unitsFault true 3 0 16 = none ∧
      (s.core.readH 3).tier ≠ 0 ∧ ((holding .L 0).core.readH 3).tier = 0 ∧ (holding .L 0).unitsFault false 3 0 16 = none ∧ s.pfops = [] ∧
      s.core.token 15 = .free ∧ busy.core.token 15 = .busy 9 ∧ done.core.token 15 = .done 16 ∧ (Issue.of busy hd 0x93).joined = false := by decide +kernel

/-- Slots of group 2 that belong to core 0: none, one, and the first and the last; and an entry of another tenant's. -/
theorem witness_HandleWordsComplete :
    let s := holding .L 0
    let own : BitVec 32 := 0x40000000
    let two := { s with slots := [(2, 0, own), (2, 1023, own)] }
    s.Issues hd 0xA0 .noShadow ∧ s.Issues hd 0xA1 .noShadow ∧ s.Issues hd 0xA2 .noShadow ∧ s.Issues hd 0xA3 .noShadow ∧
      s.Issues hd 0x98 .noShadow ∧ (s.core.readH 3).valid = true ∧ (s.core.readH 4).valid = false ∧ s.ownSlots 2 = [] ∧
      ({ s with slots := [(2, 1023, own)] }).ownSlots 2 = [1023] ∧ two.ownSlots 2 = [0, 1023] ∧ (1023 : Nat) ≤ 1023 ∧
      (let e : BitVec 32 := 0x44000000; (e.extractLsb' 30 2 : BitVec 2) = 1 ∧ (e.extractLsb' 26 4 : BitVec 4) ≠ s.core.tenant) ∧
      ¬((own.extractLsb' 26 4 : BitVec 4) ≠ s.core.tenant) := by decide +kernel

/-- An outstanding operation, and 32 of them. -/
def op (n : Nat) : PatchOp :=
  { id := n, kind := .sq, hn := 3, h := handle 0, station := none, issued := 0, outstanding := true, state := .flying 1000 0, replay := false
    key := (0, 0), stalled := [], answerAt := none, at_ := ⟨.W, 0, 0⟩ }
def busyOps (n : Nat) : State := onCore (holding .W 0) fun c => { c with ops := (List.range n).map op }

/-- A patch of one row of four FP32 elements, the last name and no name, and 31 and 32 operations outstanding. -/
theorem witness_RecordingWordsComplete :
    let s := busyOps 31
    let o : PatchOps := ⟨3, 0, 0, 0, 0, 1, 5, 0⟩
    let f := s.footOf (Issue.of s hd 0xB0) o
    let last := onCore s fun c => { c with pseq := 2 ^ 17 - 1 }
    let none_ := onCore s fun c => { c with pseq := 2 ^ 17 }
    s.Issues hd 0xB0 .noShadow ∧
      (((s.patchHandleFault 3 false).orElse (s.pairFault 3 .st 1)).orElse (s.footFault 3 16 f)) = none ∧
      (((s.patchHandleFault 3 true).orElse (s.pairFault 3 .add 1)).orElse (s.footFault 3 16 f)) = none ∧
      (((s.patchHandleFault 3 true).orElse (s.pairFault 3 .max 1)).orElse (s.footFault 3 16 f)) = none ∧
      s.Passes (Issue.of s hd 0xB0) 4 (patchPlan 1 0 16) ∧ last.core.pseq < 2 ^ 17 ∧ s.core.outstanding < 32 ∧
      2 ^ 17 ≤ none_.core.pseq ∧ 32 ≤ (busyOps 32).core.outstanding ∧ (Issue.of s hd 0xB0).joined = false := by decide +kernel

/-- With 32 operations outstanding, in a free and in a joined section. -/
theorem witness_RecordingWordsComplete_full :
    let j := onCore (withPlane (busyOps 32) (section_ 3 true 0 2)) fun c => { c with w := { c.w with hdr := 0 } }
    (busyOps 32).Issues hd 0xB0 .noShadow ∧ (Issue.of (busyOps 32) hd 0xB0).joined = false ∧ (busyOps 32).core.pseq < 2 ^ 17 ∧
      (busyOps 32).Passes (Issue.of (busyOps 32) hd 0xB0) 4 (patchPlan 1 0 16) ∧ (busyOps 32).Issues hd 0xB1 .noShadow ∧
      (busyOps 32).patchHandleFault 3 false = none ∧
      j.Issues hd 0xB0 .noShadow ∧ (Issue.of j hd 0xB0).joined = true ∧ 32 ≤ j.core.outstanding ∧ j.core.pseq < 2 ^ 17 ∧
      j.Passes (Issue.of j hd 0xB0) 4 (patchPlan 1 0 16) := by decide +kernel

/-- PXOR, POR and PAND record on a tensor of 32-bit integers. -/
theorem witness_RecordingWordsComplete_bits :
    let s := { holding .W 0 with tensors := [{ tensor with desc := { tensor.desc with fmt := 13 } }] }
    s.Issues hd 0xB0 .noShadow ∧
      (((s.patchHandleFault 3 true).orElse (s.pairFault 3 .xor 13)).orElse (s.footFault 3 16 ⟨1020, 1, 4, 4⟩)) = none ∧
      s.pairFault 3 .or 13 = none ∧ s.pairFault 3 .and 13 = none := by decide +kernel

theorem witness_PatchWordsComplete :
    let s := busyOps 31
    s.Issues hd 0xB1 .noShadow ∧ s.Issues hd 0xB5 .noShadow ∧ s.Issues hd 0xBA .noShadow ∧ s.Issues hd 0xB4 .noShadow ∧
      s.Issues hd 0xB2 .noShadow ∧ s.Issues hd 0xB3 .noShadow ∧ s.Issues hd 0xB6 .noShadow ∧ s.Issues hd 0xB9 .noShadow ∧
      s.patchHandleFault 3 false = none ∧ s.core.outstanding < 32 ∧ s.core.pseq < 2 ^ 17 ∧ s.opLog = [] ∧
      (Issue.of s hd 0xB2).joined = false := by decide +kernel

/-- W in a joined section, with the handle. -/
def joinedW : State := onCore (withPlane (holding .W 0) (section_ 3 true 0 2)) fun c => { c with w := { c.w with hdr := 0 } }

theorem witness_PatchWordsComplete_joined : joinedW.Issues hd 0xB2 .noShadow ∧ joinedW.patchHandleFault 3 false = none ∧
    (Issue.of joinedW hd 0xB2).joined = true := by decide +kernel

/-- A record of one element of tensor 7. -/
def record (name : Word) (digest : Word) : PatchRec :=
  { tid := 7, tenant := 0, name := name, kind := .st, ef := 1, sat := false, first := 3, rows := 1, cols := 1, pitch := 1, data := [0x3F800000]
    sf := 0, rs := none, issuer := 0, digest := digest, poisoned := false, folded := [] }

/-- A chain with one record; the same name with the same and with another digest; a name at a fold line; a conflicting store; and
a record that is accepted. -/
theorem witness_RecordAtSlice :
    let s := holding .W 0
    let has := { tensor with chain := [record 0x100000 5] }
    let folded := { tensor with foldLine := [(0, 0x100000)] }
    s.tensorOf 0 7 = some tensor ∧
      (has.chain.find? fun r => r.name = 0x100000) = some (record 0x100000 5) ∧ (record 0x100000 5).digest ≠ (record 0x100000 6).digest ∧
      (∀ r ∈ folded.chain, r.name ≠ 0x100000) ∧ folded.late (record 0x100000 5) = some 0x100000 ∧
      folded.late (record 0x100001 5) = none ∧
      (∀ r ∈ has.chain, r.name ≠ 0x200000) ∧ has.late (record 0x200000 5) = none ∧
      has.conflict { record 0x200000 5 with issuer := 1 } = some (1, 0x100000) ∧
      (∀ r ∈ tensor.chain, r.name ≠ 0x100000) ∧ tensor.late (record 0x100000 5) = none ∧ tensor.conflict (record 0x100000 5) = none ∧
      (∀ g ∈ tensor.granulesOf (record 0x100000 5), (tensor.chainAt g).length < 64) ∧ s.overQuota 0 0 (record 0x100000 5) = 0 ∧
      tensor.chain.Pairwise (fun a b => a.name.toNat < b.name.toNat) := by decide +kernel

/-- A launch whose gang has its flag file, and the core runs in it. -/
def launch : Launch :=
  { id := 4, seq := 0, tenant := 0, images := [], nests := [], ranges := [], ndie := 1, ncore := 1, cores := [0], tasks := [], childBase := 0, cspan := 0
    flg := true, granted := true, started := true, savedFlags := none, barriers := [], poisoned := false, cancelled := false, completed := false }
def ganged (c : Cluster) : State := { base c with launches := [launch], contextLaunch := some 4 }

/-- Nothing outstanding and a last answer exactly 32 cycles ago; an operation outstanding; and a joined section. -/
theorem witness_ReleaseWordsComplete :
    let s := onCore { ganged .W with trunk := 100 } fun c => { c with lastAnswer := some 68 }
    s.Issues hd 0xB7 .noShadow ∧ (Issue.of s hd 0xB7).joined = false ∧ s.core.freeze = [] ∧
      (∀ o ∈ s.core.ops, o.outstanding = false) ∧ s.core.refusalDue = false ∧ s.core.lastAnswer = some 68 ∧ 68 + 32 ≤ s.ctime ∧ s.peers = [] ∧
      s.Issues hd 0xC0 .noShadow ∧ s.holdsFlags = true ∧ s.Issues hd 0xB8 .noShadow ∧ s.Issues hd 0xC5 .noShadow ∧
      s.Issues hd 0xC6 .noShadow ∧ s.log = [] ∧
      (∃ o ∈ (busyOps 1).core.ops, o.outstanding = true) ∧ (busyOps 1).Issues hd 0xB8 .noShadow ∧
      (Issue.of (busyOps 1) hd 0xB8).joined = false ∧ joinedW.Issues hd 0xB7 .noShadow ∧ (Issue.of joinedW hd 0xB7).joined = true := by
  decide +kernel

theorem witness_FlagWordsComplete :
    let s := ganged .L
    let h := inHandler (ganged .S)
    s.Issues hd 0xC1 .noShadow ∧ s.Issues hd 0xC2 .noShadow ∧ s.Issues hd 0xC4 .both ∧ s.Issues hd 0xC3 .noShadow ∧
      s.core.shadow.active = false ∧ s.holdsFlags = true ∧ (Issue.of s hd 0xC1).joined = false ∧ s.core.freeze = [] ∧
      s.core.refusalDue = false ∧ s.core.ops = [] ∧ s.core.lastAnswer = none ∧ s.peers = [] ∧ (base .L).holdsFlags = false ∧ s.log = [] ∧
      h.Issues hd 0xC4 .both ∧ h.core.shadow.active = true ∧ h.holdsFlags = true ∧
      (let o : FOrd := ⟨3, 2⟩; o.ord.getLsbD 0 = true ∧ o.ord.getLsbD 1 = true) ∧ (0 : BitVec 8) ≠ 255 := by decide +kernel

theorem witness_FlagWordsComplete_joined : inJoined.Issues hd 0xC3 .noShadow ∧ (Issue.of inJoined hd 0xC3).joined = true ∧
    ({ inJoined with launches := [launch], contextLaunch := some 4 }).holdsFlags = true := by decide +kernel

/-- A joined section with release, and an access of the shadow context that is due. -/
theorem witness_FlagWordsComplete_shadow :
    (let s := { inJoined with launches := [launch], contextLaunch := some 4 };
      s.Issues hd 0xC1 .noShadow ∧ (Issue.of s hd 0xC1).joined = true ∧ (⟨2, 2⟩ : FOrd).ord ≠ 0) ∧
    (let s := onCore (inHandler (ganged .S)) fun c => { c with shadow := { c.shadow with pend := [(4, .shadowFlag 7 3)] } };
      (4, Act.shadowFlag 7 3) ∈ s.core.shadow.pend) := by decide +kernel

/-- A record of one level with one walk point of two cores. -/
def nest : Nest :=
  { words := [0x0120000000000000, 0, 0x1000, 0x102, 0x4000000000000002], nest := 0, child := none, crit := false, ixbase := 0, reached := 1, digest := 0 }

/-- A launch with a child record 0x1234 that waits for its tasks, and one whose tasks have retired. -/
def parent (st : TaskState) : Launch :=
  { launch with nests := [{ nest with words := nest.words ++ [0, 0, 0, 0, 0, 0, 0, 0x2000] }, { nest with child := some 0x1234, ixbase := 2 }]
                tasks := [⟨0, 0, 0, 0, .running 0, 0, false⟩, ⟨0, 1, 0, 1, .running 1, 0, false⟩, ⟨1, 2, 0, 0, st, 0, false⟩, ⟨1, 3, 0, 1, st, 0, false⟩] }

/-- Task 0 of such a launch runs on the core, its other clusters are parked, and an alternate plane is loaded. -/
def tasked (st : TaskState) : State :=
  let s := onCore (base .S) fun c => { c with l := .fresh, m := .fresh, w := .fresh }
  { s with launches := [parent st], contextLaunch := some 4, task := some (4, 0), planeOf := #v[some (4, 0x1000), some (4, 0x2000)] }

theorem witness_SchedulerWordsComplete :
    let s := tasked .retired
    s.IssuesFree hd 0xCA ∧ (Issue.of s hd 0xCA).c = .S ∧ s.core.taskDone s.ctime = true ∧
      (base .S).IssuesFree hd 0xCA ∧ (base .S).core.taskDone (base .S).ctime = false ∧
      s.IssuesFree hd 0xC9 ∧ (base .S).hasAlt = false ∧ s.hasAlt = true ∧ s.shadowLoaded = true ∧
      ({ s with planeOf := #v[some (4, 0x1000), none] }).shadowLoaded = false := by decide +kernel

theorem witness_SchedulerWordsComplete_kicks :
    let s := withG (tasked .retired) .S 1 0x1234
    let w := withG (tasked .ready) .S 1 0x1234
    s.Issues hd 0xC7 .noShadow ∧ (Issue.of s hd 0xC7).joined = false ∧ boundsOf (kickPlan s.ctime (4194304 - 256)) = none ∧
      s.core.kseq < 2 ^ 17 ∧ s.Passes (Issue.of s hd 0xC7) 3 (kickPlan s.ctime (4194304 - 256)) ∧
      2 ^ 17 ≤ (onCore s fun c => { c with kseq := 2 ^ 17 }).core.kseq ∧
      s.Issues hd 0xC8 .noShadow ∧ s.crownDown = false ∧ s.ownLaunch = some (parent .retired) ∧
      ((parent .retired).nests.find? fun x => x.child = some (s.readG (Issue.of s hd 0xC8) 1)) = some { nest with child := some 0x1234, ixbase := 2 } ∧
      (parent .retired).nestRetired { nest with child := some 0x1234, ixbase := 2 } = true ∧
      (parent .ready).nestRetired { nest with child := some 0x1234, ixbase := 2 } = false ∧
      w.waitsForever (parent .ready) { nest with child := some 0x1234, ixbase := 2 } = false ∧
      ((parent .retired).nests.find? fun x => x.child = some (s.readG (Issue.of s hd 0xC8) 0)) = none ∧
      s.Issues hd 0xE0 .noShadow ∧ s.core.drained s.ctime = true ∧ (busyOps 1).Issues hd 0xE0 .noShadow ∧
      (busyOps 1).core.drained (busyOps 1).ctime = false := by decide +kernel

/-! ## Witnesses: events -/

/-- A record that a core writes for a word of its own. -/
def faultAt (c : Cluster) : FaultInfo := ⟨0x14, .precise, 0, ⟨c, 0, 0⟩, false, 0x40000000, 1, 2, none⟩

/-- S has a pending steer that was written on an earlier cycle. -/
def steered_ (d : SteerTo) : State := { inPlane.setCl .S { inPlane.core.s with steer := some d } with trunk := 5 }

theorem witness_ClusterEventsComplete :
    (inPlane.core.shadow.active = false ∧ inPlane.checkFault .S = none ∧ inPlane.idleMismatch = none) ∧
    (let s := inPlane.setCl .S { inPlane.core.s with mode := .instrWait, wait := some (.untilTime 1) };
      (s.core.cl .S).wait = some (.untilTime 1) ∧ 1 ≤ s.ctime + 1) ∧
    (steered_ .park).steerSeen .S = some .park ∧ (steered_ (.sec 5)).steerSeen .S = some (.sec 5) ∧
    findSection inPlane.activePlane .S 5 = some (44, headerOf 0 false 5 4) ∧ findSection inPlane.activePlane .S 9 = none ∧
    ((inPlane.core.cl .S).steer = none ∧ (inPlane.core.cl .S).mode ≠ .parked) ∧
    (inPlane.entryReason .S = 0 ∧ inPlane.core.waitsMet .S (inPlane.header .S) = true) ∧
    (∀ e : AsyncEvent, ∀ x ∈ inPlane.core.pending, x.1 ≠ e) := by
  refine ⟨by decide, by decide, by decide, by decide, by decide +kernel, by decide +kernel, by decide, by decide +kernel, ?_⟩
  intro e x h; exact absurd h (by simp [show inPlane.core.pending = [] from rfl])

/-- A word that decodes, one that does not, and one of a running handler. -/
theorem witness_ClusterEventsComplete_words :
    decodeFor .S (inPlane.fetch .S) = .ok (.nop hd) ∧ decodeFor .S ((base .S).fetch .S) = .error .zeroWord ∧
    ((inHandler inPlane).core.shadow.active = true ∧ (inHandler inPlane).core.shadow.unchecked = false ∧
      decodeFor .S (inHandler inPlane).fetchShadow = .ok (.nop hd)) := by
  have a : inPlane.fetch .S = 0x010000000000000000000000 := by decide +kernel
  have b : (base .S).fetch .S = 0 := by decide +kernel
  have c : (inHandler inPlane).fetchShadow = 0x010000000000000000000000 := by decide +kernel
  exact ⟨by rw [a]; rfl, by rw [b]; rfl, rfl, rfl, by rw [c]; rfl⟩

/-- The section after the open one. -/
theorem witness_ClusterEventsComplete_walk : ∃ off h, walkAfter inPlane.activePlane .S 0 = .found off h := by
  have h : (match walkAfter inPlane.activePlane .S 0 with | .found off _ => off == 44 | _ => false) = true := by decide +kernel
  split at h
  · next off hdr e => exact ⟨off, hdr, e⟩
  · exact absurd h (by decide)

/-- The joined quartet of `inJoined` waits for its start. -/
def quartet : State := onCore inJoined fun c =>
  let w := fun (k : ClusterSt) => { k with mode := .quartetWait }
  { c with s := w c.s, l := w c.l, m := w c.m, w := w c.w }

theorem witness_ClusterEventsComplete_quartet :
    ∀ d, (quartet.core.cl d).mode = .quartetWait ∧ (quartet.core.cl d).sec = (quartet.core.cl .S).sec ∧
      (quartet.header d).len = (quartet.header .S).len := by
  intro d; cases d <;> decide +kernel

/-- A debugger of the tenant asks the core to halt. -/
def haltAsked (s : State) : State :=
  { onCore s fun c => { c with pending := [(.debugHalt, 0)] } with debugger := some s.core.tenant }

/-- S has issued a QUIET, and its quiet point has come. -/
def atQuiet : State := onCore inPlane fun c => { c with s := { c.s with mode := .instrWait, wait := some (.quiet false) }, holdOthers := true }

theorem witness_ClusterEventsComplete_quiet :
    atQuiet.core.s.wait = some (.quiet false) ∧ atQuiet.core.s.mode = .instrWait ∧ atQuiet.core.cursor ≤ 1 ∧
      atQuiet.core.writePending atQuiet.ctime = false ∧ atQuiet.events = [] ∧
      (haltAsked atQuiet).events = [.debugHalt] := by decide

/-- S has issued a YIELD, and a HALT. -/
def atYield : State := onCore atQuiet fun c => { c with s := { c.s with wait := some (.quiet true) } }
def atHalt : State := haltAsked (onCore inPlane fun c => { c with s := { c.s with mode := .halted } })

theorem witness_ClusterEventsComplete_yield :
    (atYield.core.s.wait = some (.quiet true) ∧ atYield.core.s.mode = .instrWait ∧ atYield.core.cursor ≤ 1 ∧
      atYield.core.writePending atYield.ctime = false ∧ atYield.core.pending = [] ∧ atYield.core.stepRem = none) ∧
    (atHalt.core.s.mode = .halted ∧ atHalt.core.cursor ≤ 1 ∧ atHalt.core.writePending atHalt.ctime = false ∧
      .debugHalt ∈ atHalt.events) := by decide

/-- A parked cluster with a steer to park. -/
theorem witness_ClusterEventsComplete_parked :
    let s := (steered_ .park).setCl .S { (steered_ .park).core.s with mode := .parked }
    s.core.shadow.active = false ∧ s.steerSeen .S = some .park ∧ (s.core.cl .S).mode = .parked := by decide

/-- A tenant whose queues are open. -/
def tenant0 : Tenant :=
  { id := 0, weight := 1, share := 4, recordQuota := 8, dataQuota := 8, cacheQuota := [8, 8, 8, 8], lpddrQuota := 8, saveUsed := 0, debug := true, created := true, ixCounter := 0
    retired := 0, coreCycles := Vector.replicate 4 0, subQ := (0, 0), compQ := (0, 0), faultQ := (0, 0), expected := 0, executed := 0, answers := [], inbox := []
    compSeq := 0, kept := [], posted := [], faults := [], checkpointArea := true, peerSeals := [] }

def frozen (f : List Freeze) : State := onCore (base .S) fun c => { c with freeze := f }

theorem witness_FaultAndDebugEventsComplete :
    (let s := { base .S with faultBuf := [FRec.zero], tenants := [tenant0], hacc := true };
      s.faultBuf = FRec.zero :: [] ∧ (∃ t ∈ s.tenants, t.id = FRec.zero.w1.extractLsb' 48 4 ∧ t.created = true) ∧ s.hacc = true ∧ s.core.heldRec = none ∧
        s.infoDropped = 0) ∧
    (.reload ∈ (frozen [.reload]).core.freeze) ∧
    ((frozen [.debug]).core.freeze.contains .debug = true ∧ (frozen [.debug]).core.faultQ = [] ∧ (1 : BitVec 16) ≠ 0) ∧
    (onCore (base .S) fun c => { c with stepRem := some 0 }).core.stepRem = some 0 ∧
    ((4194303 : Nat) < 4194304 ∧ 4194303 / 64 ∉ (frozen [.debug]).core.lockedLines) := by decide +kernel

theorem witness_memory_form : (base .S).core.MemoryForm := fun m => by cases m <;> rfl

/-- A copy of one line, of a granule whose bytes have been read. -/
def copyCmd : CopyCmd :=
  { id := 1, h := handle 2, lines := [(65535, 64)], region := 0, tag := 5, depth := 0, joined := false, issued := 0, start := none, base := 0
    reqEnd := none, complete := none, done := false, grans := [⟨0, 3, some (List.replicate 256 7, 0, [])⟩], units := [], listBad := false, key := (0, 0), at_ := ⟨.L, 0, 0⟩ }

/-- A drawer unit of group 2. -/
def drawerUnit : DrawerUnit := ⟨0, 0, 2, 0, 9, false, false, false⟩

def copying (q : CopyCmd) : State := { onCore (base .L) fun c => { c with copyQ := [q] } with trunk := 10 }

theorem witness_CopyAndLinkEventsComplete :
    (copying copyCmd).core.copyStarts (copying copyCmd).ctime = some copyCmd ∧
    (let q := { copyCmd with start := some 1, complete := some 9 }; let s := copying q;
      (s.core.copyQ.find? fun x => x.id = q.id && !x.done && x.complete.isSome) = some q ∧ (q.lines.map (·.1)).Nodup ∧
        (∀ l ∈ q.lines, (q.lineOf l.2).1.length = 64)) ∧
    (let q := { copyCmd with units := [drawerUnit] }; let s := copying q;
      (s.core.copyQ.find? fun x => x.id = q.id) = some q ∧
        (q.units.find? fun x => x.index = drawerUnit.index && !x.arrived && !x.stalled && !x.lost) = some drawerUnit ∧
        s.groupsDown.contains drawerUnit.group = false ∧ s.retraining.contains drawerUnit.group = false) ∧
    ((15 : BitVec 4).toNat ∉ (base .L).retraining ∧ (15 : BitVec 4).toNat ∉ (base .L).groupsDown) ∧
    (let s := copying { copyCmd with units := [{ drawerUnit with stalled := true }] };
      ∃ x ∈ s.core.copyQ, ∃ w ∈ x.units, w.stalled = true ∧ w.group = (2 : BitVec 4).toNat) ∧
    (let o : PfOp := ⟨7, 3, (0, 0), .discard, handle 1, 0, 1, 9⟩;
      let s := { onCore (copying copyCmd) fun c => c.setToken 3 (.busy 7) with pfops := [o] };
      (s.pfops.find? fun x => x.tok = 3 && s.pfReady x) = some o ∧ s.core.token 3 = .busy o.id ∧ (∀ x ∈ s.log, x.1 ≠ o.key) ∧
        o.kind = .discard) := by decide +kernel

/-- An operation in a given state, as the core's only one. -/
def withOp (st : OpState) (k : OpKind) : State :=
  { onCore (holding .W 0) fun c => { c with ops := [{ op 1 with state := st, kind := k }] } with trunk := 1000 }

/-- A record of one element with a full chain entry, for the operations below. -/
def recordOp : OpKind := .record (record 0x100000 5) 0 16

theorem witness_SliceEventsComplete :
    (let o := { op 1 with state := .flying 1000 0, kind := recordOp }; let s := withOp (.flying 1000 0) recordOp;
      (s.allOps.find? fun x => x.id = o.id && s.landed x) = some o ∧
        s.slice o = .answer (s.setTensor { tensor with chain := [record 0x100000 5] }) .accepted) ∧
    (let o := { op 1 with state := .heldDepth, kind := recordOp }; let s := withOp .heldDepth recordOp;
      (s.allOps.find? fun x => x.id = o.id && s.reoffers x) = some o) ∧
    (let o := { op 1 with state := .answered .accepted }; let s := withOp (.answered .accepted) .sq;
      (s.core.ops.find? fun x => x.id = o.id) = some o ∧ o.answerAt = none ∧ o.outstanding = true) ∧
    (let o := { op 1 with state := .answered (.refused 0x50 1 3 4) }; let s := withOp (.answered (.refused 0x50 1 3 4)) .sq;
      (s.core.ops.find? fun x => x.id = o.id) = some o ∧ o.state = .answered (.refused 0x50 1 3 4)) := by
  refine ⟨⟨by decide +kernel, rfl⟩, by decide +kernel, by decide +kernel, by decide +kernel⟩

/-- A packet of tenant 0 over a station that knows it. -/
def packet : Packet :=
  { head := { station := 1, wellFormed := true, source := 3, tenant := 0, key := 9 }
    body := .patch { tid := 7, name := 0x100000, kind := .add, ef := 1, sat := true, first := 0, rows := 1, cols := 1, pitch := 1
                     data := [0], sf := 0, rs := none, replay := false } }

def linked : State :=
  { base .S with tensors := [{ tensor with desc := { tensor.desc with remote := true } }]
                 stations := (base .S).stations.set 1 ⟨true, [⟨0, 9, 2, 1⟩], 0, [], [4]⟩, members := [(2, 3)] }

theorem witness_SliceEventsComplete_packet :
    (linked.stations[1]).up = true ∧ packet.head.source ∉ (linked.stations[1]).closed ∧ packet.head.wellFormed = true ∧
      linked.packetReason packet.head = 0 ∧ packet.head.tenant = 0 ∧
      linked.tensorOf 0 7 = some { tensor with desc := { tensor.desc with remote := true } } ∧ PKind.remote .add = true ∧
      (4 : BitVec 10) ∈ (linked.stations[1]).closed ∧ (linked.stations[0]).up = false ∧
      linked.packetReason { packet.head with tenant := 5 } = 1 ∧ linked.packetReason { packet.head with key := 8 } = 2 ∧
      linked.packetReason { packet.head with source := 5 } = 3 := by decide +kernel

/-- A page of tenant 0 at address 0x10000. -/
def page (installed revoked : Bool) : Page :=
  { tenant := 0, va := 0x10000, psz := 0, tier := 0, home := 0, phys := 0, pr := true, pp := true, pd := true, tid := 7, fmt := 1
    base := 0x10000, count := 1024, installed := installed
    revoked := revoked }

def paged (p : Page) : State := { base .L with pages := [p] }

theorem witness_MappingEventsComplete :
    (((0x0200000000000000 : Word).extractLsb' 57 7 : BitVec 7) ≠ 0 ∧ ((0x01FFFFFFFFFFFFFF : Word).extractLsb' 57 7 : BitVec 7) = 0) ∧
    ((base .L).pageAt 0 0x10000 = none ∧ (base .L).replayRevoked 0x10000 = false) ∧
    ((paged (page true false)).pageAt 0 0x1FFFF = some (page true false) ∧ (paged (page true false)).pageAt 0 0x20000 = none ∧
      (page true false).installed = true) ∧
    ((paged (page false false)).pageAt 0 0x10000 = some (page false false) ∧ (page false false).installed = false) ∧
    (let s := onCore (paged (page false false)) fun c => { c with freeze := [.install 3 0x10000] };
      s.core.freeze = .install 3 0x10000 :: [] ∧ s.pageAt s.core.tenant 0x10000 = some (page false false)) ∧
    (let s := onCore (paged (page false false)) fun c => { c with freeze := [.installOver 0x10000] };
      s.core.freeze = .installOver 0x10000 :: [] ∧ s.pageAt s.core.tenant 0x10000 = some (page false false)) ∧
    (let s := paged (page true false); (s.pages.find? fun x => x.tenant = 0 && x.va = 0x10000 && !x.revoked) = some (page true false)) ∧
    (let s := paged (page true true);
      (s.pages.find? fun x => x.tenant = 0 && x.va = 0x10000 && s.releasable x) = some (page true true)) ∧ (31 : BitVec 5) ≠ 3 := by
  decide +kernel

/-- A release with an act, on its first cycle. -/
def release (a : RelAct) : Release := ⟨1, (0, 0), 1, 0, [], none, 0, [], a, ⟨.W, 0, 0⟩⟩
def releasing (a : RelAct) : State := onCore (base .W) fun c =>
  { c with releases := [release a], w := { c.w with mode := .instrWait, wait := some (.release 1) } }

theorem witness_ReleaseAndPhaseEventsComplete :
    (let s := releasing .plain; (s.core.releases.find? fun x => x.id = 1 && s.releaseReady x) = some (release .plain) ∧
      (s.core.cl .W).wait = some (.release 1)) ∧
    (let o : FlagOp := ⟨0, (0, 0), 3, 4, 0, false, 2, none⟩; let s := releasing (.flag o);
      (s.core.releases.find? fun x => x.id = 1 && s.releaseReady x) = some (release (.flag o))) ∧
    (let s := releasing .taskend; (s.core.releases.find? fun x => x.id = 1 && s.releaseReady x) = some (release .taskend)) ∧
    (let t := { tensor with snap := some 15 }; let s := { base .S with tensors := [t] };
      (s.tensors.find? fun x => x.desc.tid = 7) = some t ∧ t.snap = some 15 ∧ ¬(15 + 1 < t.granules) ∧ 14 + 1 < t.granules) := by
  decide +kernel

/-- A launch of one record with two tasks, in a given state. -/
def oneRecord (st : TaskState) : Launch := { launch with nests := [nest], tasks := [⟨0, 0, 0, 0, st, 0, false⟩, ⟨0, 1, 0, 1, st, 0, false⟩], cores := [0, 1] }

/-- A core that runs nothing, and such a launch. -/
def waitingFor (l : Launch) : State := { base .S with launches := [l], tenants := [tenant0], contextLaunch := some 9, hacc := true }

/-- A walk point that may be reached: the only one of a record, none of whose tasks exists yet. -/
def unreached : Launch := { launch with nests := [{ nest with reached := 0 }], cores := [0, 1] }

theorem witness_TaskEventsComplete :
    (let l := unreached; let s := waitingFor l;
      s.launchOf l.id = some l ∧ s.walkDue l 0 = true ∧ l.nests[0]? = some { nest with reached := 0 }) ∧
    (let l := oneRecord .ready; let s := waitingFor l;
      s.launchOf l.id = some l ∧ (l.tasks.find? fun t => t.ix = 1 && t.state = .ready) = some ⟨0, 1, 0, 1, .ready, 0, false⟩ ∧
        l.nests[0]? = some nest ∧ s.contextLaunch ≠ some l.id ∧ 1 ≠ s.core.pcore.toNat) ∧
    (let l := oneRecord .retired; let s := waitingFor l;
      s.launches.find? Launch.allRetired = some l ∧ tenant0 ∈ s.tenants ∧ tenant0.id = l.tenant ∧ tenant0.created = true ∧ s.hacc = true ∧
        l.cancelled = false) ∧
    (let s := onCore (tasked .ready) fun c => { c with s := { c.s with mode := .halted } }; s.haltDone = true) := by decide +kernel

/-- Task 0 of the launch is the one that is retiring. -/
theorem witness_TaskEventsComplete_retirement :
    let l := { oneRecord (.running 0) with tasks := [⟨0, 0, 0, 0, .running 0, 0, false⟩] }
    let s := { waitingFor l with retiring := some (4, 0), task := some (4, 0) }
    s.launchOf l.id = some l ∧ s.retiring = some (l.id, 0) ∧ s.crownDown = false ∧ (∀ t ∈ l.tasks, t.ix = 0 → t.state = .running 0) ∧
      (∃ t ∈ l.tasks, t.ix = 0) ∧ (∀ m ∈ s.launches, m.tenant = l.tenant → m = l) ∧ tenant0 ∈ s.tenants ∧ tenant0.id = l.tenant ∧
      tenant0.created = true ∧ s.hacc = true := by
  decide +kernel

theorem witness_TaskStart :
    planeRefused (section_ 0 false 0 3) = false ∧
    (let l := oneRecord .ready; let s := waitingFor l;
      s.launchOf l.id = some l ∧ (l.tasks.find? fun t => t.ix = 0 && t.state = .ready) = some ⟨0, 0, 0, 0, .ready, 0, false⟩ ∧ l.nests[0]? = some nest) := by
  decide +kernel

/-- A context that may be saved; and one that is saved. -/
theorem witness_ContextEventsComplete :
    (∀ p ∈ (base .S).core.pending, p.1 ≠ .preempt) ∧
    (let s := { onCore (frozen [.event .preempt]) fun c => { c with swapTrunk := some 100 } with task := some (4, 0), trunk := 700 };
      s.task = some (4, 0) ∧ .event .preempt ∈ s.core.freeze ∧ s.core.swapTrunk = some 100 ∧ 100 + 600 ≤ s.trunk) ∧
    (let x : Saved := ⟨(base .S).core, 5, (4, 0), none⟩; let s := { base .S with saved := [x], trunk := 5 };
      s.saved[0]? = some x ∧ x.ctime ≤ s.trunk) := by
  exact ⟨by decide, ⟨rfl, by decide, rfl, by decide⟩, rfl, by decide⟩

/-- The context's launch has an alternate plane that is not loaded. -/
theorem witness_ContextEventsComplete_load : ({ tasked .ready with planeOf := #v[some (4, 0x1000), none] }).loadDue = true := by
  decide +kernel

/-- The host's version is accepted and tenant 0 created. -/
def hosted : State := { base .S with hacc := true, tenants := [{ tenant0 with expected := 100 }] }

/-- A child of one task, as sixteen reads of sixteen bytes; and a record of zeros. -/
def childBytes (ws : List Nat) : List (Nat × List Byte) :=
  (List.range 16).map fun j => (j, toBytes 8 (ws.getD (2 * j) 0) ++ toBytes 8 (ws.getD (2 * j + 1) 0))
def kick (ws : List Nat) : KickOp :=
  { id := 1, name := 0x1234, g := 3, crit := false, addr := 0, bytes := childBytes ws, spilled := false, waiting := false, seq := 0, writes := 1, oldG := 0, replay := false
    at_ := ⟨.S, 0, 0⟩ }
def kicking (ws : List Nat) : State :=
  { onCore (waitingFor { launch with cspan := 1 }) fun c => { c with kick := some (kick ws) } with contextLaunch := some 4 }
def goodChild : List Nat := [0x0120000000FF0000, 0, 0, 0x101, 0x4000000000000001]

theorem witness_CrownEventsComplete_kicks :
    (let l := { launch with cspan := 1 }; let s := kicking goodChild; let k := kick goodChild;
      s.launchOf l.id = some l ∧ s.core.kick = some k ∧ s.ownLaunch = some l ∧ k.bytes.length = 16 ∧ s.crownDown = false ∧
        (∀ y ∈ l.nests, y.child ≠ some k.name) ∧
        childReason l s.core.prio.toNat 4 (childNest l s.core.nest.toNat k) = 0 ∧ s.pool.length + 128 < 2048) ∧
    (let l := { launch with cspan := 1 }; let s := kicking []; let k := kick [];
      childReason l s.core.prio.toNat 4 (childNest l s.core.nest.toNat k) = 1 ∧ s.core.freeze = [] ∧ s.core.shadow.active = false ∧
        s.faultBuf.length < 512) := by decide +kernel

theorem witness_CrownEventsComplete :
    (let l := { launch with granted := false }; let s := { ganged .S with launches := [l] };
      s.launchOf l.id = some l ∧ s.flagsFree l = true ∧ s.ownGang l = true ∧ l.savedFlags = none) ∧
    (let s := { ganged .S with saved := [⟨(base .S).core, 0, (4, 0), none⟩] };
      launch.granted = true ∧ launch.completed = false ∧ s.ownGang launch = true ∧ s.task = none ∧ ∃ y ∈ s.saved, y.task.1 = launch.id) ∧
    (let s := { base .S with spillQ := [(4, 5)] }; s.spillQ = (4, 5) :: [] ∧ s.pool.length + 128 < 2048) ∧
    ((base .S).crownDown = false ∧ (base .S).crowns = 2) ∧
    (let s := { base .S with crownDown := true, takeoverAt := some 7, trunk := 7, crowns := 1 };
      s.crownDown = true ∧ s.takeoverAt = some 7 ∧ 7 ≤ s.trunk ∧ s.heldRetirements = []) ∧
    (let s := { hosted with crowns := 1 }; s.crownDown = false ∧ s.crowns = 1 ∧ s.hacc = true) := by decide +kernel

/-- The journal accounts for a pool entry and for a dispatch of a task that runs. -/
theorem witness_CrownEventsComplete_journal :
    let es : List JEntry := [⟨2, .dispatched 4 0 0, journalCheck 2 (.dispatched 4 0 0)⟩, ⟨1, .placed 4 5, journalCheck 1 (.placed 4 5)⟩]
    let s := { tasked .ready with crownDown := true, takeoverAt := some 0, pool := [(4, 5)], journal := es }
    (∀ e ∈ s.journal, e.good = true) ∧ (∀ y ∈ s.pool, ∃ e ∈ s.journal, e.change = .placed y.1 y.2) ∧
      s.launchOf 4 = some (parent .ready) ∧ (parent .ready).task 0 = some ⟨0, 0, 0, 0, .running 0, 0, false⟩ ∧ s.heldRetirements = [] := by
  refine ⟨?_, ?_, by decide +kernel, by decide +kernel, rfl⟩
  · intro e h; simp only [List.mem_cons, List.not_mem_nil, or_false] at h
    rcases h with rfl | rfl <;> simp [JEntry.good]
  · intro y h; simp only [List.mem_cons, List.not_mem_nil, or_false] at h
    subst h; exact ⟨⟨1, .placed 4 5, journalCheck 1 (.placed 4 5)⟩, by simp, rfl⟩

/-- A launch of nothing is accepted, one of a record without a plane is not; numbers 32 and 33 behind the expected one. -/
theorem witness_SubmissionsComplete :
    hosted.hacc = true ∧ hosted.tenants = [{ tenant0 with expected := 100 }] ∧
      hosted.launchReason 0 ⟨[], [], [], [], []⟩ = 0 ∧ hosted.launchReason 0 ⟨[], [], [[0]], [], [0]⟩ ≠ 0 ∧
      (67 : BitVec 32) ≠ 100 ∧ 32 < ((100 : BitVec 32) - 67).toNat ∧ (68 : BitVec 32) ≠ 100 ∧ ((100 : BitVec 32) - 68).toNat ≤ 32 := by
  decide +kernel

/-- A manifest with no mark and no entry, signed with zeros (R380). -/
def emptyManifest : List Byte := toBytes 4 manifestMagic.toNat ++ toBytes 2 manifestVersion ++ List.replicate 10 0 ++ List.replicate 64 0

/-- No manifest fails check 1; one without shards passes where a key of the tenant accepts its signature, which is free. -/
theorem witness_SubmissionsComplete_load :
    hosted.loadReason 0 ⟨0, [], []⟩ = 1 ∧
    (((Config.trustedKeys 0).any fun k => Config.ecdsaVerify k (Config.sha256 (emptyManifest.take 16)) 0) = true →
      hosted.loadReason 0 ⟨0, [], emptyManifest⟩ = 0) := by
  have m : readManifest emptyManifest = some ⟨0, [], [], 0⟩ := by decide +kernel
  have e : readManifest [] = none := by decide +kernel
  have n : emptyManifest.length - 64 = 16 := by decide
  refine ⟨by unfold State.loadReason; dsimp only; rw [e]; rfl, fun h => ?_⟩
  unfold State.loadReason; dsimp only; rw [m, n]
  simp only [Option.any_some, h, Bool.not_true, Bool.false_eq_true, if_false]
  decide +kernel

theorem witness_HostAndLinkEventsComplete :
    hosted.hacc = true ∧ (∃ x ∈ hosted.tenants, x.created = true) ∧ (∀ x ∈ (base .S).tenants, x.created = false) ∧
      (∀ x ∈ hosted.tenants, x.id = 15 → x.created = false) ∧
      (let ctx : StationCtx := ⟨15, 1, 2, 255⟩; ctx.weight ≠ 0 ∧
        ((hosted.stations[15]).contexts.filter fun y => y.tenant ≠ ctx.tenant).length < 16) ∧
      (let l := { launch with tenant := 0 }; let s := { hosted with launches := [l], contextLaunch := some 4 };
        l ∈ s.launches ∧ l.tenant = 0 ∧ s.contextLaunch = some l.id) := by decide +kernel

/-- The rollback point of the running phase. -/
def snap : Snap := { core := (base .S).core, phase := 0, ctime := 1, ended := none, covered := false, whole := true, pfops := [] }
def struck (p : Bool) : State :=
  { onCore (tasked .ready) fun c => { c with protectedPhase := p } with snaps := [snap], trunk := 10 }

theorem witness_ReliabilityEventsComplete :
    (let s := (struck true).keepMidway; s.task.isSome = true ∧ s.cancelled = snap :: [] ∧ snap.ctime ≤ s.trunk ∧
      s.cancelled.all s.isCovered = true) ∧
    (let s := (struck false).keepMidway; s.cancelled = snap :: [] ∧ s.cancelled.all s.isCovered = false) ∧ 11 ≠ (struck true).zone ∧
    ({ base .S with boot := .off }).boot = .off ∧ ({ base .S with boot := .stopped 2 1 }).boot = .stopped 2 1 ∧ (base .S).boot ≠ .off := by
  decide +kernel

/-- A report within the first cycle of a phase finds the core as it stands. -/
theorem witness_ReliabilityEventsComplete_midway :
    let s := ({ struck true with snaps := [] }).keepMidway
    s.cancelled.length = 1 ∧ s.cancelled.all (fun n => n.ctime ≤ s.trunk) = true ∧ s.cancelled.all s.isCovered = true := by decide +kernel

/-- A flash without images stops its chain at stage 0 (R390). -/
theorem witness_ReliabilityEventsComplete_chain : chainStops ⟨[], [], [], 0, [], []⟩ = some (0, 1) := by
  unfold chainStops; split
  · rfl
  · rfl

theorem witness_TrunkCycleMovesTime :
    ((frozen [.handler]).core.freeze ≠ [] ∧ ∀ r m, .refetch r m ∈ (frozen [.handler]).core.freeze → (frozen [.handler]).trunk + 1 < r) ∧
    ((base .S).core.freeze = [] ∧ (base .S).core.faultQ = [] ∧ (base .S).core.clag ≤ (base .S).trunk) := by
  refine ⟨⟨by decide, fun r m h => ?_⟩, by decide⟩
  exact absurd (show Freeze.refetch r m ∈ [Freeze.handler] from h) (by simp)

/-- A buffer with 511 records, and with 512. -/
theorem witness_TakingAFault :
    (faultAt .S).kind ≠ .info ∧
    (let s := { base .S with faultBuf := List.replicate 511 FRec.zero };
      s.core.freeze = [] ∧ s.core.shadow.active = false ∧ s.faultBuf.length < 512) ∧
    (let s := { base .S with faultBuf := List.replicate 512 FRec.zero }; 512 ≤ s.faultBuf.length) ∧
    ((frozen [.reload]).core.freeze ≠ [] ∧ (frozen [.reload]).core.shadow.active = false) ∧
    ((inHandler (base .S)).core.shadow.active = true ∧ (faultAt .S).kind = .precise) := by decide +kernel

theorem witness_HandlerStarts :
    let s := onCore inPlane fun c => { c with freeze := [.entering], handling := some (faultAt .S),
                                              shadow := { c.shadow with pend := [(1000, .wg .S 5 7)] } }
    (∀ a ∈ s.core.shadow.pend, s.trunk + 1 < a.1) ∧ s.core.freeze = [.entering] ∧ s.core.handling = some (faultAt .S) ∧
      findSection s.activePlane .S 1022 = some (132, headerOf 0 false 1022 1) ∧ 4 < (31 : BitVec 5).toNat := by decide +kernel

/-- Two writes of y15 on one cycle, and two of g31. -/
theorem witness_WritesOfOneCycle :
    (Issue.of (base .S) hd 0x28).shadow = false ∧ (1 : Nat) < 2 ∧ (31 : BitVec 5) ≠ 0 ∧
    (let s := onCore (base .S) fun c => { c with timeline := [⟨3, 1, .wy 15 7⟩, ⟨3, 2, .wy 15 8⟩] };
      s.core.timeline = [⟨3, 1, .wy 15 7⟩, ⟨3, 2, .wy 15 8⟩]) ∧
    (let s := onCore (base .S) fun c => { c with timeline := [⟨3, 2, .wg .L 31 8⟩, ⟨3, 1, .wg .L 31 7⟩] };
      s.core.timeline = [⟨3, 2, .wg .L 31 8⟩, ⟨3, 1, .wg .L 31 7⟩]) ∧
    (let s := onCore (base .S) fun c => { c with timeline := [⟨4, 1, .wy 15 8⟩, ⟨3, 2, .wy 15 7⟩] };
      s.core.timeline = [⟨4, 1, .wy 15 8⟩, ⟨3, 2, .wy 15 7⟩]) := by decide +kernel

/-- A guard that is false, and the word's own fields. -/
theorem witness_GuardOff :
    let i := Instr.add ⟨3, true, 0⟩ 1 (.g 2) (.g 3)
    ∃ w, encode i = some w ∧ headOf w = ⟨3, true, 0⟩ ∧ (((base .S).core.cl .S).readP 0 ^^ true) = false :=
  ⟨0x2000E0_01_02_03_000000000000, by decide, by decide, by decide⟩

/-- BR to another section is refused in a joined section, and goes on in a free one. -/
theorem witness_GuardOff_refused :
    let i := Instr.br ⟨0, true, 0⟩ 0 1
    (∃ w, encode i = some w ∧ headOf w = ⟨0, true, 0⟩ ∧ (w.extractLsb' 88 8).toNat = 3) ∧
      (Issue.of inJoined ⟨0, true, 0⟩ 3).joined = true ∧ ((1 : BitVec 10) != (Issue.of inJoined ⟨0, true, 0⟩ 3).at_.sec) = true ∧
      (Issue.of inPlane ⟨0, true, 0⟩ 3).joined = false := by
  refine ⟨⟨_, rfl, by decide, by decide⟩, by decide, by decide, by decide⟩

theorem witness_IssueFrame :
    let i := Instr.add hd 1 (.g 2) (.g 3)
    ∃ w t, encode i = some w ∧ (base .S).core.shadow.active = false ∧
      (w.extractLsb' 88 8).toNat ∉ [0x40, 0x41, 0x42, 0x47, 0x48, 0x49, 0x4A, 0x4B, 0x17, 0x18, 0x80, 0x83, 0xC9] ∧ exec i (base .S) = .next t :=
  ⟨0x200000_01_02_03_000000000000, _, by decide, by decide, by decide, rfl⟩

/-- The state after reset, whose next step is a trunk cycle. -/
theorem witness_MemoryFormKept : State.reset.MemoryForm ∧ step State.reset = exec .trunkCycle State.reset := by
  refine ⟨⟨fun m => by cases m <;> rfl, rfl, by simp [State.reset], by simp [State.reset]⟩, rfl⟩

/-! ## Single steps and values worked out in the spec -/

/-- What a step leaves, seen through a function. -/
def after {α : Type} (i : Instr) (s : State) (f : State → α) : Option α :=
  match exec i s with
  | .next t => some (f t)
  | _ => none

/-- The acts that a word has put on the timeline, with their cycles. -/
def acts (s : State) : List (Nat × Act) := s.core.timeline.map fun e => (e.due, e.act)

-- A sum that wraps, with a source that is also the destination (R156): all ones plus 1.
theorem test_add_wraps : after (.add hd 1 (.g 1) (.g 2)) (withG (withG (base .L) .L 1 (-1)) .L 2 1) acts = some [(1, .wg .L 1 0)] := by decide
-- The order of the operands of SUB.
theorem test_sub_order : after (.sub hd 3 (.g 1) (.g 2)) (withG (withG (base .S) .S 1 5) .S 2 7) acts = some [(1, .wg .S 3 (-2))] := by decide
-- MULH is signed (R156): -1 times 1 has high half all ones, on t + 3.
theorem test_mulh_signed : after (.mulh hd 3 (.g 1) (.g 2)) (withG (withG (base .S) .S 1 (-1)) .S 2 1) acts = some [(3, .wg .S 3 (-1))] := by
  decide
-- DIV by zero gives all ones, on t + 18.
theorem test_div_zero : after (.div hd 3 (.g 1) (.g 2)) (withG (base .S) .S 1 9) acts = some [(18, .wg .S 3 (-1))] := by decide
-- A shift count is taken modulo 64: SHL by 65 is SHL by 1.
theorem test_shl_count : after (.shlImm hd 3 (.g 1) 65) (withG (base .S) .S 1 1) acts = some [(1, .wg .S 3 2)] := by decide
-- SAR keeps the sign; ROL brings the top bit round.
theorem test_sar_sign : after (.sarImm hd 3 (.g 1) 63) (withG (base .S) .S 1 (BitVec.intMin 64)) acts = some [(1, .wg .S 3 (-1))] := by decide
theorem test_rol_round : after (.rolImm hd 3 (.g 1) 1) (withG (base .S) .S 1 (BitVec.intMin 64)) acts = some [(1, .wg .S 3 1)] := by decide
-- Unsigned and signed order differ for all ones and 1 (R157).
theorem test_cmp_unsigned : after (.cmp hd 4 (.g 1) (.g 2) .gtu) (withG (withG (base .S) .S 1 (-1)) .S 2 1) acts = some [(1, .wp .S 4 true)] ∧
    after (.cmp hd 4 (.g 1) (.g 2) .gt) (withG (withG (base .S) .S 1 (-1)) .S 2 1) acts = some [(1, .wp .S 4 false)] := by decide
-- A word whose guard is false has no effect but its issue (R59).
theorem test_guard_off : after (.add ⟨5, true, 0⟩ 1 (.g 1) (.g 2)) (base .S) (fun t => (acts t, t.core.s.idleRem, t.core.s.word)) = some ([], 5, 1) := by
  decide
-- LOOP in g5 of value 1 falls through and leaves 0 (R138).
theorem test_loop_end : after (.loop hd 5 1 0) (withG inPlane .S 5 1) (fun t => (acts t, t.core.s.word)) = some ([(1, .wg .S 5 0)], 1) := by
  decide +kernel
theorem test_loop_taken : after (.loop hd 5 2 0) (withG inPlane .S 5 2) (fun t => (acts t, t.core.s.word)) = some ([(1, .wg .S 5 1)], 2) := by
  decide +kernel
-- FMIN.S orders -0 below +0; FADD.S of two opposite numbers is +0 (R86, R157).
theorem test_fmin_zeros : after (.fmins hd 3 (.g 1) (.g 2)) (withG (base .S) .S 1 0x80000000) acts = some [(3, .wg .S 3 0x80000000)] := by
  decide +kernel
theorem test_fadd_zero : after (.fadds hd 3 (.g 1) (.g 2)) (withG (withG (base .S) .S 1 0x3F800000) .S 2 0xBF800000) acts =
    some [(3, .wg .S 3 0)] := by decide +kernel

/-- CVT of a value in g1 to g2: its result. -/
def converts (x : Word) (sat : Bool) (sf df : BitVec 5) (m : BitVec 4) : Option (List (Nat × Act)) :=
  after (.cvt hd 2 (.g 1) sat sf df m) (withG (base .S) .S 1 x) acts

-- The table of conversions of the spec's chapter on formats.
theorem test_cvt_modes : converts 0x3F8CCCCD false 1 2 0 = some [(3, .wg .S 2 0x3F8D)] ∧ converts 0x3F8CCCCD false 1 2 1 = some [(3, .wg .S 2 0x3F8C)] := by
  decide +kernel
theorem test_cvt_overflow : converts 0x43FA0000 false 1 4 0 = some [(3, .wg .S 2 0x7F)] ∧ converts 0x43FA0000 true 1 4 0 = some [(3, .wg .S 2 0x7E)] := by
  decide +kernel
theorem test_cvt_integers : converts 0xC06CCCCD false 1 7 0 = some [(3, .wg .S 2 (-4))] ∧ converts 0x43960000 false 1 7 0 = some [(3, .wg .S 2 0x2C)] ∧
    converts 0x43960000 true 1 7 0 = some [(3, .wg .S 2 0x7F)] := by decide +kernel
theorem test_cvt_tws8 : converts 0x3F333333 false 1 6 0 = some [(3, .wg .S 2 0x0A)] ∧ converts 0x1A false 6 1 0 = some [(3, .wg .S 2 0x3E800000)] ∧
    after (.fclass hd 2 (.g 1) 6) (withG (base .S) .S 1 0x1A) acts = some [(3, .wg .S 2 0x440)] := by decide +kernel

-- SPILL of a token that is FILLING: SPILL TOKEN with status 0x0117_0302 (the spec's chapter on registers).
theorem test_spill_token : after (.spill hd 2 5 3) (withToken .filling) (fun t => t.faultBuf.map fun r => (r.w0.toNat / 2 ^ 56, r.w1.toNat % 2 ^ 32)) =
    some [(0x72, 0x01170302)] := by decide +kernel
-- A load at an address that is no multiple of its size: LOCAL BOUNDS with reason 2 (R176).
theorem test_lds_unaligned : after (.lds hd 3 1 1 false 1) (base .S) (fun t => t.faultBuf.map fun r => (r.w0.toNat / 2 ^ 56, r.w1.toNat % 2 ^ 32)) =
    some [(0x14, 0x80000001)] := by decide +kernel
-- The hash of VRAND with seed 0x2A and counter 7, before its last shift (the spec's chapter on top-p).
theorem test_vrand_hash : randElem 0x000000070000002A 0 = 0x889901F3 := by decide
-- Six cores sliced over four (the spec's chapter on scheduling).
theorem test_slices : (List.range 4).map (sliceOf 6 4) = [(0, 1), (1, 3), (3, 4), (4, 6)] := by decide
-- MLOC of one bad row 2 and one bad column 5 (the spec's chapter on the matrix engine).
theorem test_mloc : locWord ⟨[2], [5], 0⟩ = 0x8104000000000205 := by decide

/-- A patch of FP16 on one element that adds 2^-11, or its opposite. -/
def addend (d : Nat) : PatchRec := { record 0 0 with kind := .add, ef := 3, first := 0, data := [d] }

-- The chains of the spec's chapter on patches: 1 + 2^-11 twice, and 1 + 2^-10 at once.
theorem test_composition : (composeOver (fmtOf 3) 0 [addend 0x1000, addend 0x1000] 0x3C00 []).1 = 0x3C00 ∧
    (composeOver (fmtOf 3) 0 [{ addend 0x3A800000 with ef := 1 }] 0x3C00 []).1 = 0x3C01 ∧
    (composeOver (fmtOf 3) 0 [addend 0x1000, addend 0x9000] 0x3C00 []).1 = 0x3BFF := by decide +kernel

-- The first step after reset of a placed word runs it.
theorem test_first_step : (match step (State.reset.withFetchWord 96 0x210000_01_02_FFFFFFFFFFFFFF) with
    | .next t => acts t
    | _ => []) = [(1, .wg .S 1 (-1))] := by decide


/-- A record that covers its element, one that does not, and a Restore behind its original; the last element of a granule. -/
theorem witness_CompositionOfPatches :
    let o := addend 0x1000
    let r := { record 1 0 with kind := .restore, first := 0, data := [] }
    o.at? 0 = some 0 ∧ (record 0 0).at? 0 = none ∧ r.at? 0 = some 0 ∧ [o] = [] ++ o :: [] ∧ o.name = r.name &&& ~~~1#64 ∧
      tensor.size ∈ [1, 2, 4, 8] ∧ 63 < 256 / tensor.size ∧ tensor.baseva ≤ 3840 ∧ 3840 + tensor.size * 63 < tensor.baseva + tensor.count * tensor.size ∧
      tensor.baseva + tensor.count * tensor.size ≤ 4096 + tensor.size * 0 := by decide +kernel

-- A Restore gives back what stood beneath its original (R233): 1.0, after an addition.
theorem test_restore : (composeOver (fmtOf 3) 0 [addend 0x3C00, { record 1 0 with kind := .restore, first := 0, data := [] }] 0x3C00 []).1 =
    0x3C00 := by decide +kernel

/-- An operation of the core whose slice has accepted it before, with a digest. -/
def acceptedOnce (r : PatchRec) (chain : List PatchRec) (made : List (Nat × Derived)) : State :=
  { onCore (holding .W 0) fun c => { c with ops := [{ op 1 with kind := .record r 0 4, replay := true }] } with
    tensors := [{ tensor with chain := chain }], madeLog := made, sliceLog := [((op 1).key, .accepted, 5, 9)] }

/-- The names and the data of the chain that a replayed recording word leaves. -/
def chainAfter (r : PatchRec) (chain : List PatchRec) (made : List (Nat × Derived)) : Option (List (Word × List Nat)) :=
  match (acceptedOnce r chain made).slice { op 1 with kind := .record r 0 4, replay := true } with
  | .answer s .accepted => (s.tensors.head?).map fun t => t.chain.map fun x => (x.name, x.data)
  | _ => none

def oldSum : PatchRec := { record 0x100000 5 with kind := .add }
def newSum : PatchRec := { oldSum with data := [0x40000000], digest := 6 }

-- R371, R376: a patch that was dropped in the span does not come back, with the same data or with other data.
theorem test_replay_drop : chainAfter oldSum [] [] = some [] ∧ chainAfter newSum [] [] = some [] := by decide +kernel
-- A patch of the span has other data on its replay: it takes its place, and where it was merged, 1.0 with 1.0, the sum is 2.0 and 1.0.
theorem test_replay_data : (substRec [(oldSum, newSum)] oldSum).data = [0x40000000] ∧
    (let q := { oldSum with name := 0x100002 }
     let m := { mergedOf oldSum q with digest := 7 }
     let all := (remadeAll [(0, ⟨.merge, oldSum, q, m⟩)] [(oldSum, newSum)]).1
     (substRec all m).data = [0x40400000] ∧ (substRec all q).data = q.data) := by decide +kernel
-- R109, R129: a wait that ends under S's hold costs its cluster no cycle but its own; IDLE stands still.
theorem test_wait_under_hold : (((base .M).endWait .M).core.m.nextCycle true).idleRem = 0 ∧
    (({ (base .M).core.m with idleRem := 3 }).nextCycle true).idleRem = 3 := by decide
-- R145, R343: an earlier word's write to the g of a waiting KICK is what a refusal leaves there; the KICK's own write is not.
theorem test_refused_kick :
    let s := onCore (kicking []) fun c => { c with timeline := [⟨1, 0, .wg .S 3 0x1234⟩, ⟨1, 7, .wg .S 3 9⟩] }
    ((s.performDue 1).refuseKick (((s.performDue 1).core.kick).getD (kick [])) 1).core.s.readG 3 = 9 := by decide +kernel
-- R79, R330: an image whose last header has another MAGIC is refused; fewer than 8 bytes more hold no header.
theorem test_image_tail : headersOk (section_ 0 false 0 1) = true ∧ headersOk (section_ 0 false 0 1 ++ List.replicate 8 0) = false ∧
    headersOk (section_ 0 false 0 1 ++ List.replicate 7 0) = true := by decide +kernel

/-! ## Witnesses: joined sections and the shadow context -/

/-- The joined quartet with a write still to be made. -/
def joinedBusy : State := onCore inJoined fun c => { c with timeline := [⟨9, 1, .wy 1 7⟩] }

theorem witness_ClockAndIdleWordsComplete_joined :
    (inJoined.Issues hd 0x0A .noShadow ∧ (Issue.of inJoined hd 0x0A).joined = true) ∧
    (inJoined.Issues hd 0x0C .noShadow ∧ (Issue.of inJoined hd 0x0C).joined = true ∧ inJoined.core.writePending inJoined.ctime = false) ∧
    (joinedBusy.Issues hd 0x0D .noShadow ∧ (Issue.of joinedBusy hd 0x0D).joined = true ∧
      joinedBusy.core.writePending joinedBusy.ctime = true ∧ joinedBusy.core.copyQ = [] ∧
      (⟨9, 1, .wy 1 7⟩ : Entry) ∈ joinedBusy.core.timeline ∧ (Act.wy 1 7).silent = false) ∧
    (Issue.of inJoined hd 0x0B).joined = true := by decide +kernel

/-- BR at words 1 and 2 of a joined section of length 2, and to another section. -/
theorem witness_TransfersComplete_joined :
    inJoined.Issues hd 0x03 .both ∧ (Issue.of inJoined hd 0x03).joined = true ∧ (0 : BitVec 10) = (Issue.of inJoined hd 0x03).at_.sec ∧
      (1 : BitVec 12).toNat < (inJoined.header .S).len ∧ (inJoined.header .S).len ≤ (2 : BitVec 12).toNat ∧
      (1 : BitVec 10) ≠ (Issue.of inJoined hd 0x03).at_.sec ∧ (Issue.of inJoined hd 0x07).joined = true := by decide +kernel

/-- The handler's own section of one word, and sections 5 (free, four words) and 6 (joined, two words). -/
def handlerIn : State := onCore (inHandler inPlane) fun c =>
  { c with shadow := { c.shadow with sec := 1022, hdr := 132, g := (c.shadow.g.set 1 (BitVec.ofNat 64 (2 ^ 22 - 1))).set 2 5 } }

theorem witness_TransfersComplete_shadow :
    let s := handlerIn
    s.core.shadow.active = true ∧ s.Issues hd 0x03 .both ∧ s.Issues hd 0x05 .freeOrShadow ∧ s.Issues hd 0x04 .freeOrShadow ∧
      s.Issues hd 0x06 .freeOrShadow ∧ s.Issues hd 0x07 .freeOrShadow ∧ findSection s.activePlane .S 1022 = some (132, headerOf 0 false 1022 1) ∧
      (0 : BitVec 12).toNat < (headerOf 0 false 1022 1).len ∧ s.core.shadow.hdr = 132 ∧
      findSection s.activePlane .S 9 = none ∧ findSection s.activePlane .S 5 = some (44, headerOf 0 false 5 4) ∧
      findSection s.activePlane .S 6 = some (100, headerOf 0 true 6 2) ∧ (s.core.shadow.readG 1).toNat < 2 ^ 22 ∧
      s.core.shadow.readG 2 = (5 : BitVec 10).setWidth 64 ∧ (headerOf 0 false 5 4).len ≠ 0 := by decide +kernel

theorem witness_LoopsAndSteersComplete_joined :
    inJoined.Issues hd 0x08 .both ∧ inJoined.Issues hd 0x09 .both ∧ (Issue.of inJoined hd 0x08).joined = true ∧
      (0 : BitVec 10) = (Issue.of inJoined hd 0x08).at_.sec ∧ (1 : BitVec 12).toNat < (inJoined.header .S).len ∧
      (1 : BitVec 10) ≠ (Issue.of inJoined hd 0x08).at_.sec ∧ inJoined.Issues hd 0x07 .noShadow ∧ (inJoined.core.cl .W).steer = none ∧
      ((inJoined.setCl .W { inJoined.core.cl .W with steer := some .park }).core.cl .W).steer ≠ none := by decide +kernel

theorem witness_LoopsAndSteersComplete_shadow :
    handlerIn.core.shadow.active = true ∧ (1022 : BitVec 10) = handlerIn.core.shadow.sec ∧
      (0 : BitVec 12).toNat < (headerAt handlerIn.activePlane handlerIn.core.shadow.hdr).len ∧ handlerIn.Issues hd 0x08 .both ∧
      handlerIn.Issues hd 0x09 .both := by decide +kernel

/-- The record of the fault that is being handled stands between two others. -/
theorem witness_TrapsComplete_shadow :
    let x : FRec := { FRec.zero with w0 := 5 }
    let s := { onCore handlerIn fun c => { c with handled := some x } with faultBuf := [FRec.zero, x, FRec.zero] }
    s.core.shadow.active = true ∧ s.Issues hd 0x10 .both ∧ s.faultBuf.length < 512 ∧ s.faultBuf = [FRec.zero] ++ x :: [FRec.zero] ∧
      s.core.handled = some x ∧ x ∉ [FRec.zero] := by decide +kernel

/-! ## Witnesses: banks, codebooks and checks -/

/-- An access to bank 61 is still to be made, with the bands in drain group 2; and in a joined section. -/
def bankWaits : State := onCore allocated fun c => { c with timeline := [⟨9, 1, .wr .acc [(16384 * 61, 1)] [0]⟩] }
def bankWaitsJoined : State :=
  let p := section_ 2 true 0 2
  onCore (withPlane bankWaits p) fun c => { c with m := { c.m with hdr := 0 } }

theorem witness_AccumulatorWordsComplete_waits :
    (let s := bankWaits; s.Issues hd 0x51 .noShadow ∧ s.Issues hd 0x53 .noShadow ∧ s.Issues hd 0x54 .noShadow ∧ s.Issues hd 0x55 .noShadow ∧
      (Issue.of s hd 0x53).joined = false ∧ s.core.bankAllocated 61 = true ∧ s.core.bankBusy 61 = true ∧ s.core.bankBusy 60 = false ∧
      (∀ q < 4, 0 / 16 ≤ q → q ≤ (0 + 64 - 1) / 16 → bandOwner (s.core.bankOwner 61) q = 2)) ∧
    (bankWaitsJoined.Issues hd 0x54 .noShadow ∧ (Issue.of bankWaitsJoined hd 0x54).joined = true ∧
      bankWaitsJoined.core.bankBusy 61 = true) ∧
    (let s := onCore allocated fun c => { c with owner := c.owner.set 61 0x1A }
     let owner := fun (x : Nat) => bandOwner (s.core.bankOwner 61) x
     s.Issues hd 0x53 .noShadow ∧ s.core.bankAllocated 61 = true ∧ owner 2 = 1 ∧ (owner 2 ≠ 2) ∧ owner 0 = 2 ∧ owner 1 = 2 ∧ owner 3 = 0 ∧
      2 ≤ (0 + 64 - 1) / 16) := by decide +kernel

theorem witness_FormatAndCodebookWordsComplete_plane :
    let s := banked (.plane 7)
    s.Issues hd 0x83 .noShadow ∧ s.core.anyAct (Act.expands 1) = false ∧ s.core.loadingNow 1 = false ∧
      (s.core.bank 1).source = .plane 7 ∧ s.Fits (unitsOf .cb (32768 * 1) (128 * (s.core.bank 1).count)) := by decide +kernel

/-- The wrong cell's register was written once, by a product that is recorded. -/
def recordedWrong : State := onCore wrongCell fun c => { c with
  mrLanes := c.mrLanes.set 1 { c.lanesOf true 1 with uc := 1 }
  mxret := retried.core.mxret
  retry := retried.core.retry }

theorem witness_CheckWordsComplete_fix :
    (let s := recordedWrong; s.Issues hd 0x4A .noShadow ∧ s.core.destSettled (.reg 1) (s.core.seq + 1) = true ∧
      (s.core.checkAll (.reg 1)).1.rows = [2] ∧ (s.core.checkAll (.reg 1)).1.cols = [3] ∧ s.core.recorded (.reg 1) = true ∧
      (s.core.lanesOf true (s.core.destFirst (.reg 1))).uc = 1 ∧ s.core.retry.isSome = true ∧
      s.Fits (unitsOf .mr (cellAddr true (s.core.lanesOf true 1).f64 (s.core.destFirst (.reg 1)) 2 3) 4)) ∧
    (wrongCell.core.recorded (.reg 1) = false) := by decide +kernel

/-- Two bad rows, which are no one cell. -/
theorem witness_CheckWordsComplete_many :
    let s := onCore (base .M) fun c => { c with mrLanes := c.mrLanes.set 1 { Lanes.fresh with
      rl := (lanesBut 2).set 5 (0x3FF0000000000000, 0), rm := (lanesBut 2).set 5 (0, 0), cl := lanesBut 64, cm := lanesBut 64 } }
    s.core.destSettled (.reg 1) (s.core.seq + 1) = true ∧ s.Issues hd 0x48 .noShadow ∧ s.Issues hd 0x4A .noShadow ∧
      s.core.poison = [] ∧ (s.core.checkAll (.reg 1)).1.rows = [5] ∧ (s.core.checkAll (.reg 1)).1.cols = [] := by decide +kernel

theorem witness_CheckWordsComplete_lost :
    (retried.core.mxret.getLsbD 63 = true ∧ retried.core.retNames true 2 = false) ∧
    (let s := onCore retried fun c => { c with mrLanes := c.mrLanes.set 1 { c.lanesOf true 1 with uc := 2 } };
      s.core.mxret.getLsbD 63 = true ∧ s.core.retNames true 1 = true ∧ (s.core.lanesOf true 1).uc ≠ 1) := by decide +kernel

/-! ## Witnesses: slots, flags and releases -/

/-- Three read slots of the context, and one of another tenant's on the same core. -/
theorem witness_HandleWordsComplete_slots :
    let own : BitVec 32 := 0x40000000
    let s := { holding .L 0 with slots := [(2, 0, own), (2, 5, 0x44000000), (2, 100, own), (2, 1023, own)] }
    s.Issues hd 0x98 .noShadow ∧ s.ownSlots 2 = [0, 100, 1023] ∧ s.ownSlots 2 ≠ [] ∧
      (s.slotEntry 2 5).extractLsb' 30 2 = 1#2 ∧ (s.slotEntry 2 5).extractLsb' 26 4 ≠ s.core.tenant := by decide +kernel

/-- The last answer is one cycle short of 32 old; words of a core whose launch has no flag file. -/
theorem witness_FlagWordsComplete_waits :
    (let s := onCore { ganged .W with trunk := 99 } fun c => { c with lastAnswer := some 68 }
     s.holdsFlags = true ∧ s.Issues hd 0xC1 .noShadow ∧ (Issue.of s hd 0xC1).joined = false ∧ ¬(68 + 32 ≤ s.ctime) ∧ s.core.lastAnswer = some 68) ∧
    ((base .W).holdsFlags = false ∧ (base .W).Issues hd 0xC3 .noShadow ∧ (base .W).Issues hd 0xC0 .noShadow ∧
      (base .W).Issues hd 0xC1 .noShadow) ∧
    (let s := inHandler (base .S); s.Issues hd 0xC4 .both ∧ s.core.shadow.active = true ∧ s.holdsFlags = false) := by decide +kernel

/-- An access with acquire to a flag that a release of the same core has written. -/
theorem witness_FlagWordsComplete_acquire :
    let w : FlagWrite := ⟨4, 0, 2, [(7, 0x100000)]⟩
    let s := { ganged .W with flagHist := [w] }
    (∀ x ∈ s.log, x.1 ≠ (0, 0)) ∧ w ∈ s.flagHist ∧ w.flag = 4 ∧ s.covers w.scope w.core s.core.pcore.toNat = true ∧
      (5 : BitVec 8) ≠ 4 := by decide +kernel

theorem witness_SchedulerWordsComplete_planes : (tasked .retired).Fits (planeUnits (tasked .retired).shadowImage) := by decide +kernel

/-- A release whose publication a replay has made before; and rollback points of a final and of a running phase, with an answer of
each. -/
theorem witness_ReleaseAndPhaseEventsComplete_replay :
    (let s := { releasing .plain with log := [((0, 0), 0, 0)] }
     (s.core.releases.find? fun x => x.id = 1 && s.releaseReady x) = some (release .plain) ∧ ∃ x ∈ s.log, x.1 = (release .plain).key) ∧
    (let old : Snap := { core := (base .S).core, phase := 0, ctime := 1, ended := some 5, covered := true, whole := true, pfops := [] }
     let s := { base .S with snaps := [old, { old with phase := 1, ctime := 6, ended := none }], trunk := 605,
                             opLog := [((0, 0), .accepted, 3), ((0, 1), .accepted, 9)] }
     5 + 600 ≤ s.trunk ∧ old ∈ s.snaps ∧ ((0, 1), Answer.accepted, 9) ∈ s.opLog) := by decide +kernel

/-- The only task of the launch has read what a replay replaced. -/
theorem witness_TaskEventsComplete_lost :
    let l := { oneRecord (.running 0) with tasks := [⟨0, 0, 0, 0, .running 0, 0, true⟩] }
    let s := { waitingFor l with retiring := some (4, 0), task := some (4, 0) }
    s.launchOf l.id = some l ∧ s.retiring = some (l.id, 0) ∧ s.crownDown = false ∧ l.tasks.any (fun t => t.ix = 0 && t.lost) = true := by
  decide +kernel

/-! ## Witnesses: submissions and the boot chain -/

/-- Two tenants; the second's queue has executed 40 entries. -/
def hostedTwo : State :=
  { hosted with tenants := [{ tenant0 with expected := 100 }, { tenant0 with id := 1, expected := 100, executed := 40, answers := [(68, (3, .cancelled 1))] }] }

theorem witness_SubmissionsComplete_tenants :
    let s := hostedTwo
    let a := { tenant0 with expected := 100 }
    let b := { tenant0 with id := 1, expected := 100, executed := 40, answers := [(68, (3, .cancelled 1))] }
    s.hacc = true ∧ s.crownDown = false ∧ a ∈ s.tenants ∧ b ∈ s.tenants ∧ (∀ x ∈ s.tenants, x.id = a.id → x = a) ∧
      (∀ x ∈ s.tenants, x.id = b.id → x = b) ∧ b.created = true ∧
      (68 : BitVec 32) ≠ b.expected ∧ (b.expected - 68).toNat = 32 ∧ (b.expected - 68).toNat ≤ b.executed ∧
      b.answers.find? (fun x => x.1 = 68) = some (68, (3, .cancelled 1)) ∧ 32 < (b.expected - 67).toNat ∧
      (99 : BitVec 32) ≠ a.expected ∧ a.executed < (a.expected - 99).toNat := by decide +kernel

/-- Bytes read back are the number they hold. -/
theorem ofBytes_toBytes (n v : Nat) : ofBytes (toBytes n v) = v % 256 ^ n := by
  induction n generalizing v with
  | zero => simp [toBytes, ofBytes, Nat.mod_one]
  | succ n ih =>
    rw [toBytes, ofBytes, ih, Nat.pow_succ, Nat.mul_comm (256 ^ n), Nat.mod_mul, BitVec.toNat_ofNat]

theorem toBytes_length (n v : Nat) : (toBytes n v).length = n := by
  induction n generalizing v with
  | zero => rfl
  | succ n ih => rw [toBytes, List.length_cons, ih]

/-- A tensor of four elements of FP32 in a page of tenant 0, and a shard of it. -/
def small : Tensor := { tensor with desc := { tensor.desc with e0 := 4, baseva := 0x10000 } }
def loadable : State := { hosted with tensors := [small], pages := [page true false] }
def payload : List Byte := List.replicate 16 0x3F
def shard : Shard :=
  { head := { magic := shardMagic, version := shardVersion, fmt := 1, flags := 0, tid := 7, e0 := 4, e1 := 1, e2 := 1, e3 := 1, reserved := 0
              digest := Config.sha256 payload }
    payload := payload }

/-- A manifest of one entry with a digest. -/
def manifestHead : List Byte :=
  toBytes 4 manifestMagic.toNat ++ toBytes 2 manifestVersion ++ [0, 0, 1, 0, 0, 0, 0, 0, 0, 0] ++ toBytes 8 7 ++ toBytes 8 16
def manifestOf (d : BitVec 256) : List Byte := manifestHead ++ ((toBytes 32 d.toNat).reverse ++ List.replicate 64 0)

theorem readManifest_manifestOf (d : BitVec 256) : readManifest (manifestOf d) = some ⟨0, [], [(7, 16, d)], 0⟩ := by
  have l : (toBytes 32 d.toNat).reverse.length = 32 := by rw [List.length_reverse, toBytes_length]
  have e : ofBytes (((toBytes 32 d.toNat).reverse ++ List.replicate 64 0).take 32).reverse = d.toNat := by
    rw [List.take_append_of_le_length (by omega), List.take_of_length_le (by omega), List.reverse_reverse, ofBytes_toBytes]
    exact Nat.mod_eq_of_lt d.isLt
  have g : ((toBytes 32 d.toNat).reverse ++ List.replicate 64 (0 : Byte)).drop 32 = List.replicate 64 0 := by
    rw [List.drop_append_of_le_length (by omega), List.drop_of_length_le (by omega), List.nil_append]
  have p : manifestHead.length = 32 := by decide
  have n : (manifestOf d).length = 128 := by simp [manifestOf, toBytes_length, p]
  have lo : ∀ o k, o + k ≤ 32 → leAt (manifestOf d) o k = ofBytes ((manifestHead.drop o).take k) := by
    intro o k h
    unfold leAt manifestOf
    rw [List.drop_append_of_le_length (by omega), List.take_append_of_le_length (by rw [List.length_drop]; omega)]
  have hi : (manifestOf d).drop 32 = (toBytes 32 d.toNat).reverse ++ List.replicate 64 0 := by
    unfold manifestOf
    exact List.drop_left' (by decide)
  have hi2 : (manifestOf d).drop 64 = List.replicate 64 0 := by
    rw [show (64 : Nat) = 32 + 32 from rfl, ← List.drop_drop, hi, g]
  have c : ofBytes ((manifestHead.drop 0).take 4) = manifestMagic.toNat ∧ ofBytes ((manifestHead.drop 4).take 2) = manifestVersion ∧
      ofBytes ((manifestHead.drop 8).take 4) = 1 ∧ ofBytes ((manifestHead.drop 12).take 4) = 0 ∧
      ofBytes ((manifestHead.drop 6).take 2) = 0 ∧ ofBytes ((manifestHead.drop 16).take 8) = 7 ∧
      ofBytes ((manifestHead.drop 24).take 8) = 16 := by decide +kernel
  obtain ⟨c0, c1, c2, c3, c4, c5, c6⟩ := c
  have b1 : beAt (manifestOf d) 32 32 = d.toNat := by unfold beAt; rw [hi, e]
  have b2 : beAt (manifestOf d) 64 64 = 0 := by unfold beAt; rw [hi2]; decide
  unfold readManifest
  simp only [lo 0 4 (by decide), lo 4 2 (by decide), lo 8 4 (by decide), lo 12 4 (by decide), lo 6 2 (by decide), c0, c1, c2, c3, c4, n]
  simp [List.range_succ, lo 16 8 (by decide), lo 24 8 (by decide), c5, c6, b1, b2]

/-- One whole shard with a manifest that names it passes every check where a key of the tenant accepts the signature. -/
theorem witness_SubmissionsComplete_shard :
    let c : Checkpoint := ⟨0, [shard], manifestOf (Config.sha256 payload)⟩
    (((Config.trustedKeys 0).any fun k =>
      Config.ecdsaVerify k (Config.sha256 ((manifestOf (Config.sha256 payload)).take (128 - 64))) 0) = true → loadable.loadReason 0 c = 0) := by
  intro c h
  have n : (manifestOf (Config.sha256 payload)).length = 128 := by
    rw [manifestOf, List.length_append, List.length_append, List.length_reverse, toBytes_length, List.length_replicate]; rfl
  have t : loadable.tensorOf 0#4 7#24 = some small := by decide +kernel
  have l : loadable.launches = [] := rfl
  unfold State.loadReason
  simp only [c, readManifest_manifestOf, n]
  simp only [Option.any_some, h, Bool.not_true, Bool.false_eq_true, if_false]
  simp [shard, shardMatches, shardIncomplete, t, l, small, tensor, shardMagic, shardVersion, payload]

/-- The shard's one granule lands in the page. -/
theorem witness_SubmissionsComplete_lands :
    let x := shard
    loadable.gmem.wf = true ∧ loadable.tensorOf 0 (x.head.tid.setWidth 24) = some small ∧ small.granules = 1 ∧
      (loadable.baseKey small 0).isSome = true ∧ (loadable.baseKey small 0).all (fun k => k % 256 == 0) = true ∧
      ((x.payload.drop (256 * 0)).take (min 256 (small.count * small.size - 256 * 0))).length = 16 := by decide +kernel

/-- A chain whose images and root key are accepted goes through. -/
theorem witness_ReliabilityEventsComplete_boots :
    let b : BootStage := ⟨[], 3, Config.sha256 [], 0⟩
    (base .S).monotonic ≤ b.version ∧
    (Config.sha256 [] = Config.rootKeyHash → Config.ecdsaVerify [] (Config.sha256 []) 0 = true →
      chainStops ⟨[], [b, b, b], [], 3, [], []⟩ = none) := by
  refine ⟨by decide, fun h v => ?_⟩
  have r : ∀ f : BootFlash, f.rootKey = [] → f.monotonic = 3 → stageReason f (some ⟨[], 3, Config.sha256 [], 0⟩) = 0 := by
    intro f a b
    simp only [stageReason, sealOk, a, b, v, decide_true, Bool.and_self, Bool.not_true, Bool.false_eq_true, if_false,
      Nat.lt_irrefl]
  unfold chainStops
  rw [if_neg (by simp only [h, ne_eq, not_true_eq_false, not_false_eq_true]), List.find?_eq_none.2]
  · rfl
  · intro k m
    have m := List.mem_range.1 m
    have e : ∀ x : BootStage, [x, x, x][k]? = some x := by intro x; match k, m with | 0, _ => rfl | 1, _ => rfl | 2, _ => rfl
    have z := r ⟨[], [⟨[], 3, Config.sha256 [], 0⟩, ⟨[], 3, Config.sha256 [], 0⟩, ⟨[], 3, Config.sha256 [], 0⟩], [], 3, [], []⟩ rfl rfl
    rw [e, z]; decide

/-- A link that is up and one that is down. -/
theorem witness_HostAndLinkEventsComplete_links :
    (linked.stations[1]).up = true ∧ (linked.stations[0]).up = false ∧ (∃ x ∈ hosted.tenants, x.created = true) := by decide +kernel

/-! ## Witnesses: vector words -/

/-- Local store with a scale of 1.0 at 0 and one of zero at 64, indices 0, 1 and others at 128. -/
def vectorCore : Core := { (banked .none).core with ls := [(2, 0x80), (3, 0x3F), (128, 0x44)] }

/-- A segment whose one block has a scale that VQUANT refuses, and one that it takes; VDEQ takes both. -/
theorem witness_VectorActs_scales :
    let side := fun (a : Nat) => ((List.range 4).map fun x => (vectorCore.ls.get (a + x)).toNat * 256 ^ x).sum
    side 0 = 0x3F800000 ∧ ¬(side 0 / 2 ^ 31 = 1 ∨ (Fmt.f32.value (side 0)).isNaN = true ∨ side 0 = 0) ∧ side 64 = 0 ∧
      ¬(side 64 / 2 ^ 31 = 1 ∨ (Fmt.f32.value (side 64)).isNaN = true) := by decide +kernel

/-- Scales of E4M3 are written with part 15; indices of seven bits; random words of both formats. -/
theorem witness_VectorActs_formats :
    (let j : VJob := { (default : VJob) with op := .bscl, cnt := 1, ef := 1, mod := 0x48 }
     0 < j.cnt ∧ Fmt.ofCode j.ef = some .f32 ∧ Fmt.ofCode (j.mod / 16 % 16) = some .e4m3 ∧ j.mod / 8 % 2 = 1) ∧
    (let j : VJob := { (default : VJob) with op := .pack, cnt := 1, ef := 11, ixw := 7 }; Fmt.ofCode j.ef = some .n8 ∧ 0 < j.ixw) ∧
    (Fmt.ofCode 13).isSome = true ∧ (VFn.topk.output = true ∧ VFn.topk ≠ .gather) := by decide

/-- The buffers of a word with an output phase: sixteen parts of a segment, and one gather cycle of four-byte elements. -/
theorem witness_VectorActs_outputs :
    (let j : VJob := { (default : VJob) with id := 4, op := .gather, cnt := 1, ef := 1 }
     let c : Core := { vectorCore with bufs := (List.range 4).map fun x => (4, 2 * (16 * (j.cnt + x)), List.replicate 64 7) }
     ∀ x < 4 * j.cnt, (c.buf j.id (2 * (16 * (j.cnt + x)))).length = 16 * 4) ∧
    (let j : VJob := { (default : VJob) with id := 4, op := .topk, cnt := 1, ef := 1, mod := 63 }
     j.mod < ((List.range (16 * j.cnt)).flatMap fun _ => List.range 4).length) := by decide +kernel

/-- Bank 1 has two entries: a segment of indices below 2, and one with an index of 4. -/
theorem witness_VectorActs_codebook :
    let j : VJob := { (default : VJob) with op := .cbx, cnt := 1, ef := 14, aa := 0, bank := 1, ixw := 4, ebytes := 4 }
    j.ebytes ∈ [1, 2, 4, 8, 16, 32, 64, 128] ∧ vectorCore.poison = [] ∧
      ({ vectorCore with ls := [] } : Core).cbxBad j 0 = false ∧ vectorCore.cbxBad { j with aa := 128 } 0 = true := by decide +kernel

/-! ## One step each: what a replay, a release and a teardown keep -/

-- R79, R80: a handler whose section has LEN 0 is stopped by the check of its header, before any word.
theorem test_shadow_len0 :
    (let p := section_ 0 false 1022 0
     let s := onCore (inHandler (withPlane (base .S) p)) fun c => { c with shadow := { c.shadow with unchecked := true } }
     s.shadowPick = some (.idleExpiry .S) ∧ headerFault s.activePlane 0 (headerAt s.activePlane 0) = 4) := by decide +kernel
/-- What a slice answers, and the state that a wait's end gives. -/
def answered (r : SliceRes) : Option Answer := match r with | .answer _ a => some a | .hold .. => none
def ended (r : Res) : Option State := match r with | .ok t => some t | _ => none

-- R109, R147: what a wait writes at its end has the place of its word, here 3, though words of place 9 have issued meanwhile.
theorem test_wait_place :
    (let s := onCore (base .L) fun c => { c with l := { c.l with seqAt := 3 }, seq := 9, pftok := c.pftok.set 2 (.done 5) }
     (ended (s.tryWait .L (.pfwait 7 2))).map (fun t => (t.core.timeline, t.core.seq)) = some ([⟨1, 3, .wg .L 7 5⟩], 9)) := by
  decide +kernel
-- R240: an inverse whose name lies at a fold line is refused with that line, though its original is not sealed.
theorem test_late_inverse :
    (let t := { tensor with chain := [{ record 0x100000 5 with kind := .add }], foldLine := [(0, 0x200000)] }
     answered (State.arriveInv { holding .W 0 with tensors := [t] } (handle 0) 0 0x100000) = some (.refused 0x52 1 0x100001 0x200000)) := by
  decide +kernel
-- R243: a peer's patch with the replay mark replaces the record of its name, whose digest is another one.
theorem test_peer_replay :
    (let p : PeerPatch := { tid := 7, name := 0x100000, kind := .add, ef := 1, sat := true, first := 0, rows := 1, cols := 1, pitch := 1
                            data := [0], sf := 0, rs := none, replay := true }
     let t := { tensor with desc := { tensor.desc with remote := true }, chain := [record 0x100000 5] }
     answered (State.peerOffer { linked with tensors := [t] } ⟨1, true, 3, 0, 9⟩ p) = some .accepted) := by
  simp [answered, State.peerOffer, State.arriveRecord, State.tensorOf, PKind.remote, linked, tensor, record, packetRecord]
  by_cases h : 5#64 = recDigest .add 1 0 1 1 1 [0] <;> simp [h]
-- R263: pod scope covers the cores of the package and those of the partition's devices, and no other device.
theorem test_pod_scope : linked.covers 5 0 47 = true ∧ linked.covers 5 0 (peerCore 3) = true ∧ linked.covers 5 0 (peerCore 4) = false ∧
    linked.covers 5 (peerCore 4) 0 = false ∧ linked.covers 4 0 191 = true := by decide +kernel
-- R266: a teardown drops the names of the tenant's own tensors from barriers and flags, and leaves names of a peer's tensor.
theorem test_forget :
    (let l := { launch with barriers := [⟨0, 0, 0, 5, [(7, 4), (9, 4)]⟩], savedFlags := some (State.reset.flags, [⟨1, 0, 5, [(7, 4), (9, 4)]⟩]) }
     let s := onCore { holding .S 0 with launches := [l] } fun c => { c with observed := [(7, 4), (9, 4)] }
     let t := s.forget fun tid => tid = 7
     t.core.observed = [(9, 4)] ∧ t.launches.all fun l => l.barriers.all (·.set = [(9, 4)]) &&
       l.savedFlags.all fun x => x.2.all (·.set = [(9, 4)])) := by decide +kernel
-- R337: a prefetch in flight keeps no halted task from retiring; an outstanding operation does.
theorem test_halt_retires :
    (let s := onCore (tasked .ready) fun c => { c with s := { c.s with mode := .halted }, pftok := c.pftok.set 2 (.busy 1) }
     s.haltDone = true ∧ (onCore s fun c => { c with ops := [op 1] }).haltDone = false) := by decide +kernel
-- R353: of two records with the same first word the one of the handled fault gains FINAL, in its tenant's queue too.
theorem test_final :
    (let x : FRec := { FRec.zero with w7 := 2 }
     let s := { onCore (base .S) fun c => { c with handled := some x } with faultBuf := [FRec.zero], tenants := [{ tenant0 with faults := [x] }] }
     s.markHandled.faultBuf = [FRec.zero] ∧ s.markHandled.tenants.all fun t => t.faults.all fun r => bitAt r.w1 53) := by decide +kernel
-- R370, R376: a replayed copy-in finds the units that were resident on its cycle the first time, and not those that left later.
theorem test_replay_residency :
    (let s := { holding .L 1 with replayUntil := some 3, past := [((1, 0), { (base .L).world with cache := [⟨0, 0, (handle 1).phys / 4096, false⟩] })] }
     s.copyHandleFault 3 [(0, 64)] = none ∧
       ({ s with trunk := 1 }).copyHandleFault 3 [(0, 64)] = some (0x41, 11, handleBounds 3 3 0)) := by decide +kernel
-- R370: the stalls of a cancelled cycle come again on it, and are raised by nothing else.
theorem test_replay_stall :
    (let f : FaultInfo := { faultAt .W with code := 0x53, kind := .stall, hold := some (.patch 5) }
     let s := { onCore (base .W) fun c => { c with ops := [op 1] } with stallLog := [⟨0, 0, (op 1).key, f⟩], replayUntil := some 3 }
     s.stallsAgain.core.faultQ = [{ f with hold := some (.patch 1) }] ∧ (s.takeStall (op 1).key f).core.faultQ = []) := by decide +kernel
-- R375: a table that the crown scheduler sets gives a group that is down no read slot.
theorem test_down_group : State.upSlots { base .S with groupsDown := [2] } [(2, 0, 0x40000000), (2, 1, 0x80000000), (3, 0, 0x40000000)] =
    [(2, 1, 0x80000000), (3, 0, 0x40000000)] := by decide +kernel

/-! ## Witnesses and steps: holds, markers and the chain of an earlier cycle -/

/-- A queued command whose one line is line 0 of local store, and a state in which it is the only one. -/
def locking : CopyCmd := { copyCmd with lines := [(0, 0)] }
def lockedFirst (s : State) : State := onCore s fun c => { c with copyQ := [locking] }

/-- LDS at 0, a locked line, in a free and in a joined section. -/
theorem witness_ScalarAccessesComplete_locked :
    let meets := fun (s : State) => s.Issues hd 0x2A .noShadow ∧ s.core.refusal 3 false 0 1 = none ∧
      firstClash s.core.calendar (Issue.of s hd 0x2A).at_ [] [⟨s.ctime + 1, 0, false, 0, 1, 1, false⟩] = none ∧ s.core.rangeLocked 0 1 = true
    (meets (lockedFirst (base .S)) ∧ (Issue.of (lockedFirst (base .S)) hd 0x2A).joined = false) ∧
    (meets (lockedFirst inJoined) ∧ (Issue.of (lockedFirst inJoined) hd 0x2A).joined = true) := by decide +kernel

/-- A bank that is allocated with zero in a core whose accumulators are in canonical form, and that it is allocated without. -/
theorem witness_RegisterActs : ((base .M).core.acc.wf = true ∧ (true && true) = true) ∧ (true && false) = false ∧ (61 : Nat) < 62 := by decide

/-- A declaration over a region with an access to come, and the clearing of that region. -/
theorem witness_PhaseWordsComplete_waits :
    regionBusy.Issues hd 0x15 .noShadow ∧ (Issue.of regionBusy hd 0x15).joined = false ∧
      regionBusy.core.phdeclReady regionBusy.ctime 3 (some (declared 0 0 31 31 false false)) = false ∧
      regionBusy.core.phdeclReady regionBusy.ctime 3 none = false := by decide +kernel

theorem witness_FormatAndCodebookWordsComplete_busy :
    expanding.Issues hd 0x83 .noShadow ∧ expanding.core.anyAct (Act.expands 1) = true := by decide +kernel

/-- ERET with a precise fault of W, a stall and a deferred fault queued; and with a deferred fault alone. -/
theorem witness_HandlerStartsAndReturns_queued :
    let queued := fun (l : List FaultInfo) => onCore (inHandler (base .S)) fun c => { c with faultQ := l }
    let a := { faultAt .S with kind := .deferred }
    let b := { faultAt .S with kind := .stall }
    let s := queued [a, b, faultAt .W]
    s.core.shadow.active = true ∧ s.core.shadow.readP hd.psel ≠ hd.neg ∧ s.core.handling.all (fun f => f.hold.isNone) = true ∧
      s.core.nextFault = some (faultAt .W) ∧ s.core.freeze = [.handler] ∧ s.faultBuf.length < 512 ∧
      (queued [a, b]).core.nextFault = some b ∧ (queued [a]).core.nextFault = some a ∧ a.kind ≠ .precise ∧ a.kind ≠ .stall := by
  decide +kernel

/-- The next state of an event. -/
def gave (o : Host.Outcome State Fault Refusal) : Option State := match o with | .next t => some t | _ => none

/-- A revoked page whose marker names a copy command of another page. -/
def markedPage (done : Bool) : State :=
  { onCore (paged (page true true)) fun c => { c with copyQ := [{ copyCmd with done := done }] } with
    task := some (4, 0), markers := [⟨0, 0x10000, [((4, 0), (0, 0))], []⟩] }

-- R207: the page stays while a copy command that was issued before its marker is not complete, whatever page that one reads.
theorem witness_MappingEventsComplete_markers :
    (∃ k ∈ (markedPage false).markers, k.tenant = 0 ∧ k.va = 0x10000 ∧ (markedPage false).task = some (4, 0) ∧
      ∃ q ∈ (markedPage false).core.copyQ, q.done = false ∧ ((4, 0), q.key) ∈ k.copies) ∧
    (markedPage false).releasable (page true true) = false ∧ (markedPage true).releasable (page true true) = true ∧
    (markedPage true).pages = [page true true] ∧
    (gave (execRevocationMarker 0 0x10000 { markedPage false with pages := [page true false], markers := [] })).map
      (fun t => (t.pages, t.markers)) = some ([page false true], (markedPage false).markers) := by
  refine ⟨⟨_, .head _, rfl, rfl, rfl, _, .head _, rfl, by decide⟩, by decide +kernel, by decide +kernel, rfl, by decide +kernel⟩

-- R174, R179: a tag is checked at the issue that ends the hold, not while the copy-in that brings it is in flight.
theorem test_tag_under_lock :
    let plan : List Planned := [⟨1, 0, false, 0, 1, 1, false⟩]
    let tagged := fun (s : State) => onCore s fun c => { c with expTag := 5, regions := c.regions.set 3 (some (declared 0 0 31 31 false true)) }
    (tagged (base .S)).core.tagFault 0 1 ≠ none ∧ ((tagged (base .S)).checkPlan (Issue.of (base .S) hd 0x2A) 3 plan).map (·.1) = some 0x11 ∧
      (tagged (lockedFirst (base .S))).checkPlan (Issue.of (base .S) hd 0x2A) 3 plan = none := by decide +kernel
-- R370, R371, R376: what is outside changes on cycle 0; a replay sees the old base there, and the new one from the next cycle on.
theorem test_replay_world :
    (let s := onCore { holding .L 0 with snaps := [snap], gmem := [(7, 9)] } fun c => { c with freeze := [.reload], handling := some { faultAt .L with kind := .deferred } }
     let t := { s.changing false fun s => { s with gmem := [] } with replayUntil := some 3 }
     t.gmem = [] ∧ t.asOf.gmem = [(7, 9)] ∧ (State.asOf { t with trunk := 1 }).gmem = []) := by decide +kernel
-- R370, R371: an effect that a replay makes for the first time is seen on its own cycle, and stays after what the span did later.
theorem test_replay_own :
    (let s := { base .L with snaps := [snap], replayUntil := some 3, gmem := [(8, 1)], past := [((2, 0), { (base .L).world with gmem := [] })] }
     let t := s.changing true fun s => { s with gmem := s.gmem.write 7 [9] }
     t.gmem = [(7, 9), (8, 1)] ∧ t.asOf.gmem = [(7, 9)] ∧ (State.asOf { t with trunk := 2 }).gmem = [(7, 9), (8, 1)]) := by decide +kernel
-- R370, R375: a replay finds the slots that its cycle found before a link group went down later in the span.
theorem test_slots_then :
    (let s := { base .L with slots := [(2, 0, 0x40000000)], snaps := [snap], trunk := 1 }
     (gave (execLinkGroupDown 2 s)).map (fun t => (t.slots.length, (State.asOf { t with trunk := 0, replayUntil := some 3 }).slots.length)) =
       some (0, 1)) := by decide +kernel
-- R348: a deferred fault that is queued when a precise one is taken is taken after the words of the cycle, and so after their faults.
theorem test_precise_first :
    (let d := { faultAt .M with kind := .deferred }
     let s := State.raise (onCore inPlane fun c => { c with faultQ := [d] }) (faultAt .S)
     s.core.faultQ = [] ∧ s.core.waitQ = [d] ∧ (s.leaveHandler.core.waitQ = [d]) ∧
       (onCore s fun c => { c with freeze := [] }).afterWords.core.handling = some d) := by decide +kernel

/-- Tensor 7 in a drawer, one foldable record in its first granule, and a write slot of its group that its slice owns. -/
def inDrawer (slot : BitVec 32) : State :=
  { hosted with tenants := [{ tenant0 with ixCounter := 1 }]
                tensors := [{ small with chain := [{ record 0x100000 5 with kind := .st, first := 0, rs := some 0 }] }]
                pages := [{ page true false with tier := 2, phys := 0x2000 }], slots := [(2, 5, slot)] }

-- R216, R239, R255: a fold into a drawer takes its slice's write slot, and is made when that has passed; without one it is not made.
theorem test_write_slot :
    (let s := inDrawer 0x80000000
     let t := (s.tensors.head?).getD small
     let u := s.foldGranule t 0
     (s.foldablePrefix t 0).length = 1 ∧ u.slotWrites.map (fun w => (w.block, w.grans)) = [(2, [0])] ∧ u.tensors = s.tensors ∧ u.gmem = s.gmem ∧
       (inDrawer 0x40000000).foldGranule t 0 = inDrawer 0x40000000 ∧ (s.passWrite ⟨0, 7, [0], 2, 0, 5⟩).gmem.get ((s.baseKey t 0).getD 0 + 3) = 0x3F) := by
  decide +kernel
-- R336, R342: KWAIT takes up the last release of a task of the child also where it completed on this very cycle, and no other such release.
theorem test_child_release :
    (let r : RelDone := ⟨0, 0, 5, [(7, 1)], some (4, 0)⟩
     let s := { base .S with relHist := [r, { r with task := none, set := [(7, 2)] }] }
     (s.acquireChild (parent .retired) { nest with ixbase := 0 }).core.observed = [(7, 1)]) := by decide +kernel
-- R346: a tenant's teardown journals the release of the flag file that a launch of it held.
theorem test_teardown_journal :
    (gave (execTenantTeardown launch.tenant { ganged .S with launches := [{ launch with granted := true, completed := false }] })).map
      (fun t => t.journal.map (·.change)) = some [.grant 4 false] := by decide +kernel
-- R371: a replayed gather takes for each granule what that granule gave the first time, wherever its list puts it.
theorem test_read_offset :
    (let kept := (copying copyCmd).keepRead (handle 2) 256
     let s := { copying copyCmd with readLog := [((copyCmd.key, (handle 2).key 256), kept)] }
     (s.firstRead copyCmd ⟨256, 3, none⟩).isSome = true ∧ (s.firstRead copyCmd ⟨0, 3, none⟩).isSome = false) := by decide +kernel

/-! ## Witnesses: what a slice holds, what waits outside the core, and what stands behind a replay -/

/-- A record on a granule whose 64 records none may fold, which its slice holds under R241; an enquiry with its answer; and a peer's held
patch that its slice takes now. -/
theorem witness_SliceEventsComplete_holds :
    (let full : List PatchRec := (List.range 64).map fun n => { record (BitVec.ofNat 64 (2 * n)) 0 with first := 0 }
     let o := { op 1 with state := .flying 1000 0, kind := recordOp }
     let s := { withOp (.flying 1000 0) recordOp with tensors := [{ tensor with chain := full }] }
     (s.allOps.find? fun x => x.id = o.id && s.landed x) = some o ∧ o ∈ s.core.ops ∧
       (∃ x1, s.slice o = .hold s .heldDepth x1 ∧ (holdStall o .heldDepth x1).isSome = true) ∧ o.stalled = [] ∧ s.stallLog = []) ∧
    (let k : OpKind := .drop 31 3
     let o := { op 1 with state := .answered (.pred true), kind := k, outstanding := false }
     let s := onCore (withOp (.answered (.pred true)) k) fun c => { c with ops := [o], w := { c.w with wait := some (.answer 1) } }
     (s.core.ops.find? fun x => x.id = o.id) = some o ∧ o.answerAt = none ∧ o.pred = some 31 ∧ s.core.w.wait = some (.answer o.id)) ∧
    (let p : PeerPatch := { tid := 7, name := 0x100000, kind := .add, ef := 1, sat := true, first := 0, rows := 1, cols := 1, pitch := 1, data := [0], sf := 0, rs := none, replay := false }
     let s := { linked with heldPackets := [(5, packet.head, p)] }
     (s.allOps.find? fun x => x.id = 5 && s.reoffers x) = none ∧
       (s.heldPackets.find? fun x => x.1 = 5 && s.packetMoves x) = some (5, packet.head, p) ∧
       answered (State.peerOffer { s with heldPackets := s.heldPackets.erase (5, packet.head, p) } packet.head p) = some .accepted) := by
  refine ⟨⟨by decide +kernel, by decide +kernel, ⟨0, by rfl, by decide⟩, by decide, by decide⟩, by decide +kernel, by decide +kernel⟩

/-- Two writes of one a, p, k, cb and h register and of one token, on one cycle in both orders, and on two cycles. -/
theorem witness_WritesOfOneCycle_files :
    let two := fun (m n : Nat) (e f : Act) => (onCore (base .S) fun c => { c with timeline := [⟨n, 2, f⟩, ⟨m, 1, e⟩] }).core.timeline = [⟨n, 2, f⟩, ⟨m, 1, e⟩]
    (1 : Nat) < 2 ∧ (3 : Nat) < 4 ∧ (31 : BitVec 5) ≠ 0 ∧ two 3 3 (.wa .W 15 1) (.wa .W 15 2) ∧ two 3 4 (.wp .L 31 true) (.wp .L 31 false) ∧
      two 3 4 (.wk 7 1) (.wk 7 2) ∧ two 3 3 (.wcb 3 1) (.wcb 3 2) ∧ two 3 4 (.wh 31 .invalid) (.wh 31 (handle 0)) ∧
      two 3 3 (.wtok 15 ⟨.free, 0, 0⟩) (.wtok 15 ⟨.held, 1, 64⟩) ∧ two 3 4 (.wg .M 31 1) (.wg .M 31 2) :=
  ⟨by decide, by decide, by decide, rfl, rfl, rfl, rfl, rfl, rfl, rfl⟩

/-- No cancelled run of the word has waited: SWAP, KWAIT, KICK and HALT. -/
theorem witness_Outside :
    (let s := tasked .retired; (s.advance (Issue.of s hd 0xC9)).waitKept .swap = none) ∧
    (let s := withG (tasked .retired) .S 1 0x1234; (s.advance (Issue.of s hd 0xC8)).waitKept .kwait = none) ∧
    (kicking goodChild).waitKept .kick = none ∧ atHalt.waitKept .halt = none := by decide +kernel

/-- A release that waits for an operation; with pod scope, one that no cancelled run has made. -/
theorem witness_ReleaseWordsComplete_waits :
    (busyOps 1).Issues hd 0xB7 .noShadow ∧ (Issue.of (busyOps 1) hd 0xB7).joined = false ∧
      ¬(∀ o ∈ (busyOps 1).core.ops, o.outstanding = false) ∧ (busyOps 1).log = [] := by decide +kernel

/-- A FENCE with both orders whose release completes later, and a change that is kept for the rollback point of a phase that remains. -/
theorem witness_ReleaseAndPhaseEventsComplete_acquire :
    (let s := releasing (.acquire 3); (s.core.releases.find? fun x => x.id = 1 && s.releaseReady x) = some (release (.acquire 3))) ∧
    (let s := { base .S with snaps := [{ snap with ctime := 3 }], past := [((3, 0), (base .S).world)] };
      s.past ≠ [] ∧ ∀ x ∈ s.past, 3 ≤ x.1.1) := by decide +kernel

/-- A unit of a group that is up. -/
theorem witness_CopyAndLinkEventsComplete_up : drawerUnit.group ∉ (copying { copyCmd with units := [drawerUnit] }).asOf.groupsDown ∧
    drawerUnit.group ∉ (copying { copyCmd with units := [drawerUnit] }).retraining := by decide +kernel

/-- A task of another core that runs. -/
theorem witness_TaskEventsComplete_other :
    let l := { oneRecord (.running 0) with tasks := [⟨0, 1, 0, 1, .running 1, 0, false⟩] }
    let s := { waitingFor l with tensors := [{ tensor with tenant := l.tenant, chain := [record (makeName 1 0 0) 5] }] }
    s.launchOf l.id = some l ∧ s.retiring ≠ some (l.id, 1) ∧ s.task ≠ some (l.id, 1) ∧ (∀ t ∈ l.tasks, t.ix = 1 → t.state = .running 1) ∧
      (∃ t ∈ l.tasks, t.ix = 1) ∧ (∀ m ∈ s.launches, m.tenant = l.tenant → m = l) ∧ nameTask (makeName 1 0 0) = 1 ∧
      nameOrigin (makeName 1 0 0) = s.origin.toNat := by decide +kernel

/-- A launch of the tenant holds its flag file. -/
theorem witness_HostAndLinkEventsComplete_teardown :
    let s := { hosted with launches := [{ launch with granted := true }] }
    s.launches.length ≤ 4096 ∧ ∃ l ∈ s.launches, l.tenant = launch.tenant ∧ l.granted = true ∧ l.completed = false := by
  refine ⟨by decide, _, .head _, rfl, rfl, by decide⟩

/-- Faults wait on a core that runs: a stall that arrived later comes before a deferred fault; and none waits. -/
theorem witness_TrunkCycleMovesTime_faults :
    (let d := { faultAt .M with kind := .deferred }
     let x := { faultAt .W with kind := .stall }
     let s := onCore (base .S) fun c => { c with waitQ := [d], faultQ := [x] }
     s.core.freeze = [] ∧ s.core.shadow.active = false ∧ s.faultBuf.length < 512 ∧
       Core.nextFault { s.core with faultQ := s.core.waitQ ++ s.core.faultQ } = some x) ∧ (base .S).core.waitQ = [] := by decide +kernel
end Sys2Proof.Tests
end

section
/-! PROOFS. The acts that move bytes: what a read of pieces answers and marks, what a write changes and leaves (O18). -/

namespace Sys2Proof.Machine

/-! ## Numbers from bytes (R4) -/

theorem mul_sum_eq_sum_map (k : Nat) (l : List Nat) : k * l.sum = (l.map (k * ·)).sum := by
  induction l with
  | nil => rfl
  | cons x l ih => rw [List.sum_cons, Nat.mul_add, ih, List.map_cons, List.sum_cons]

/-- A little-endian number is the sum of its bytes, each at its place. -/
theorem ofBytes_map_range (n : Nat) : ∀ f : Nat → Byte,
    ofBytes ((List.range n).map f) = ((List.range n).map fun j => (f j).toNat * 256 ^ j).sum := by
  induction n with
  | zero => exact fun _ => rfl
  | succ n ih =>
    intro f
    have shifted : ∀ j, 256 * ((f (j + 1)).toNat * 256 ^ j) = (f (j + 1)).toNat * 256 ^ (j + 1) := fun j => by
      rw [Nat.mul_left_comm, Nat.pow_succ, Nat.mul_comm 256]
    simp only [List.range_succ_eq_map, List.map_cons, List.map_map, Function.comp_def, Nat.succ_eq_add_one, ofBytes,
      List.sum_cons, Nat.pow_zero, Nat.mul_one, ih, mul_sum_eq_sum_map, shifted]

/-- A loaded element in its register, zero-extended or sign-extended (R184). -/
theorem loadedWord_eq (bs : List Byte) (sz : Nat) (sx : Bool) :
    loadedWord bs sz sx = if sx = true ∧ 2 ^ (8 * 2 ^ sz - 1) ≤ ofBytes bs then
      BitVec.ofInt 64 ((ofBytes bs : Int) - 2 ^ (8 * 2 ^ sz)) else BitVec.ofNat 64 (ofBytes bs) := by
  simp only [loadedWord, Bool.and_eq_true, decide_eq_true_eq, ge_iff_le]

/-! ## A mark in CIR -/

/-- The core after a read that met poison or did not (R367). -/
def Core.marked (c : Core) (bit : Nat) (bad : Bool) : Core := if bad then c.setCir bit else c

/-- A mark touches the CIR alone. -/
theorem Core.marked_eq (c : Core) (bit : Nat) (bad : Bool) :
    c.marked bit bad = { c with cir := if bad then c.cir ||| BitVec.twoPow 64 bit else c.cir } := by
  cases bad <;> rfl

@[simp] theorem Core.marked_cir (c : Core) (bit : Nat) (bad : Bool) :
    (c.marked bit bad).cir = if bad then c.cir ||| BitVec.twoPow 64 bit else c.cir := by
  rw [Core.marked_eq]

@[simp] theorem Core.marked_poison (c : Core) (bit : Nat) (bad : Bool) : (c.marked bit bad).poison = c.poison := by
  rw [Core.marked_eq]

@[simp] theorem Core.marked_timeline (c : Core) (bit : Nat) (bad : Bool) : (c.marked bit bad).timeline = c.timeline := by
  rw [Core.marked_eq]

@[simp] theorem Core.marked_mem (c : Core) (bit : Nat) (bad : Bool) (m : Mem) : (c.marked bit bad).mem m = c.mem m := by
  rw [Core.marked_eq]; cases m <;> rfl

@[simp] theorem Core.marked_badByte (c : Core) (bit : Nat) (bad : Bool) (m : Mem) (a : Nat) :
    (c.marked bit bad).badByte m a = c.badByte m a := by
  simp [Core.badByte]

/-- A second mark of the same bit adds nothing. -/
theorem Core.marked_marked (c : Core) (bit : Nat) (x y : Bool) : (c.marked bit x).marked bit y = c.marked bit (x || y) := by
  cases x <;> cases y <;> simp [Core.marked_eq, BitVec.or_assoc]

/-! ## Reads (R145, R367) -/

/-- The addresses of consecutive pieces. -/
def pieceAddrs (ps : List (Nat × Nat)) : List Nat := ps.flatMap fun p => (List.range p.2).map fun j => p.1 + j

/-- A byte as an engine reads it: zero in a poisoned unit (R367). -/
def Core.byteRead (c : Core) (m : Mem) (x : Nat) : Byte := if c.badByte m x then 0 else (c.mem m).get x

theorem Core.marked_byteRead (c : Core) (bit : Nat) (bad : Bool) (m : Mem) :
    (c.marked bit bad).byteRead m = c.byteRead m := by
  funext x; simp [Core.byteRead]

theorem Core.readMem_eq (c : Core) (m : Mem) (bit a n : Nat) :
    c.readMem m bit a n = ((List.range n).map fun j => c.byteRead m (a + j),
      c.marked bit ((List.range n).any fun j => c.badByte m (a + j))) := rfl

/-- A read of pieces answers their bytes in order and marks the CIR where one of them is poisoned. -/
theorem Core.readPieces_eq (m : Mem) (bit : Nat) (ps : List (Nat × Nat)) : ∀ c : Core,
    c.readPieces m bit ps =
      ((pieceAddrs ps).map (c.byteRead m), c.marked bit ((pieceAddrs ps).any (c.badByte m))) := by
  induction ps with
  | nil => exact fun _ => rfl
  | cons p ps ih =>
    intro c
    have bad : ∀ b, (c.marked bit b).badByte m = c.badByte m := fun b => funext fun x => c.marked_badByte bit b m x
    simp only [Core.readPieces, Core.readMem_eq, ih, Core.marked_byteRead, bad, Core.marked_marked]
    simp only [pieceAddrs, List.flatMap_cons, List.map_append, List.map_map, List.any_append, List.any_map,
      Function.comp_def]

theorem padTo_eq (ps : List (Nat × Nat)) (bs : List Byte) :
    padTo ps bs = bs ++ List.replicate ((ps.map (·.2)).sum - bs.length) 0 := by
  rw [padTo, List.sum_eq_foldl]

/-! ## Registers that a change of memory, marks or timeline leaves -/

theorem Core.SameRegisters.refl (c : Core) : c.SameRegisters c :=
  ⟨fun _ => ⟨rfl, rfl, rfl⟩, rfl, rfl, rfl, rfl, rfl, rfl, rfl⟩

theorem Core.SameSystem.refl (c : Core) : c.SameSystem c :=
  ⟨rfl, rfl, rfl, rfl, rfl, rfl, rfl, rfl, rfl, rfl, rfl, rfl, rfl, rfl⟩

theorem Core.sameRegisters_marked (c : Core) (bit : Nat) (bad : Bool) (l : List Entry) :
    c.SameRegisters { c.marked bit bad with timeline := l } := by
  cases bad <;> exact Core.SameRegisters.refl c

@[simp] theorem Core.mem_timeline (c : Core) (l : List Entry) (m : Mem) : ({ c with timeline := l } : Core).mem m = c.mem m := by
  cases m <;> rfl

/-! ## Writes (R145, R367) -/

/-- A byte written reads as it was written. -/
theorem Memory.get_write_inside {bs : List Byte} : ∀ {a : Nat} {m : Memory}, m.wf = true → ∀ j (h : j < bs.length),
    (m.write a bs).get (a + j) = bs[j] := by
  induction bs with
  | nil => intro a m _ j h; exact absurd h (Nat.not_lt_zero j)
  | cons b bs ih =>
    intro a m wf j h
    cases j with
    | zero => exact (Memory.get_write_outside (.inl (Nat.lt_succ_self a))).trans (Memory.get_put_same wf)
    | succ j =>
      rw [← Nat.add_assoc, Nat.add_right_comm]
      exact ih (Memory.put_wf wf) j (Nat.lt_of_succ_lt_succ h)

/-- Lifting poison leaves everything else, and adds no unit. -/
theorem Core.unpoison_eq (c : Core) (m : Mem) (a n : Nat) :
    ∃ p, (∀ u ∈ p, u ∈ c.poison) ∧ c.unpoison m a n = { c with poison := p } := by
  unfold Core.unpoison
  dsimp only
  split
  · exact ⟨c.poison, fun _ h => h, rfl⟩
  · exact ⟨_, fun _ h => (List.mem_filter.1 h).1, rfl⟩

/-- The start of a unit names the same unit. -/
theorem Mem.unitAt_start (m : Mem) (x : Nat) : m.unitAt (x / m.unitBytes * m.unitBytes) = m.unitAt x := by
  cases m <;> simp only [Mem.unitAt, Mem.unitBytes, PoisonUnit.lsLine.injEq, PoisonUnit.accRow.injEq, PoisonUnit.mRow.injEq,
    PoisonUnit.scaleBlock.injEq, PoisonUnit.cbSlot.injEq] <;> omega

theorem Mem.unitBytes_pos (m : Mem) : 0 < m.unitBytes := by
  cases m <;> decide

/-- A unit `k` inside a range is one of the units that are counted from the first one to start in it. -/
theorem unit_within {u a n k : Nat} (hu : 0 < u) (start : a ≤ k * u) (stop : k * u + u ≤ a + n) :
    ∃ i < n / u, (a + u - 1) / u + i = k := by
  have first : (a + u - 1) / u ≤ k := Nat.le_of_lt_succ ((Nat.div_lt_iff_lt_mul hu).2 (by rw [Nat.succ_mul]; omega))
  have above : a ≤ (a + u - 1) / u * u := by
    have := Nat.div_add_mod (a + u - 1) u
    have := Nat.mod_lt (a + u - 1) hu
    rw [Nat.mul_comm]; omega
  refine ⟨k - (a + u - 1) / u, (Nat.le_div_iff_mul_le hu).2 ?_, by omega⟩
  rw [Nat.succ_mul, Nat.sub_mul]
  omega

/-- A unit that is covered wholly loses its mark. -/
theorem Core.unpoison_covered (c : Core) (m : Mem) {a n x : Nat} (start : a ≤ x / m.unitBytes * m.unitBytes)
    (stop : x / m.unitBytes * m.unitBytes + m.unitBytes ≤ a + n) : m.unitAt x ∉ (c.unpoison m a n).poison := by
  obtain ⟨i, hi, at_⟩ := unit_within m.unitBytes_pos start stop
  unfold Core.unpoison
  dsimp only
  split
  · next unmarked => simp [unmarked]
  · simp only [List.mem_filter, not_and, Bool.not_eq_true', Bool.not_eq_false, List.any_eq_true, List.mem_range,
      Bool.and_eq_true, decide_eq_true_eq, beq_iff_eq]
    exact fun _ => ⟨i, hi, by rw [at_]; exact stop, by rw [at_, Mem.unitAt_start]⟩

/-- A write touches its memory and the poison marks alone. -/
theorem Core.writeMem_eq (c : Core) (m : Mem) (a : Nat) (bs : List Byte) :
    ∃ p, (∀ u ∈ p, u ∈ c.poison) ∧ c.writeMem m a bs = { c.setMem m ((c.mem m).write a bs) with poison := p } := by
  obtain ⟨p, sub, eq⟩ := (c.setMem m ((c.mem m).write a bs)).unpoison_eq m a bs.length
  refine ⟨p, fun u hu => ?_, eq⟩
  have := sub u hu
  cases m <;> exact this

theorem Core.writeMem_mem (c : Core) (m m' : Mem) (a : Nat) (bs : List Byte) :
    (c.writeMem m a bs).mem m' = if m' = m then (c.mem m).write a bs else c.mem m' := by
  rw [Core.writeMem, Core.unpoison_mem, Core.mem_setMem]

theorem Core.writeMem_poison_mem {c : Core} {m : Mem} {a : Nat} {bs : List Byte} {u : PoisonUnit}
    (h : u ∈ (c.writeMem m a bs).poison) : u ∈ c.poison := by
  obtain ⟨p, sub, eq⟩ := c.writeMem_eq m a bs
  rw [eq] at h
  exact sub u h

@[simp] theorem Core.writeMem_timeline (c : Core) (m : Mem) (a : Nat) (bs : List Byte) :
    (c.writeMem m a bs).timeline = c.timeline := by
  obtain ⟨p, -, eq⟩ := c.writeMem_eq m a bs
  rw [eq]; cases m <;> rfl

theorem Core.sameRegisters_writeMem (c : Core) (m : Mem) (a : Nat) (bs : List Byte) : c.SameRegisters (c.writeMem m a bs) := by
  obtain ⟨p, -, eq⟩ := c.writeMem_eq m a bs
  rw [eq]; cases m <;> exact Core.SameRegisters.refl c

theorem Core.sameSystem_writeMem (c : Core) (m : Mem) (a : Nat) (bs : List Byte) : c.SameSystem (c.writeMem m a bs) := by
  obtain ⟨p, -, eq⟩ := c.writeMem_eq m a bs
  rw [eq]; cases m <;> exact Core.SameSystem.refl c

/-! ## The acts on the core -/

/-- A load marks the CIR and leaves its register write for later. -/
theorem Core.performAct_load_eq (c : Core) (t due q : Nat) (g : BitVec 5) (a sz : Nat) (sx : Bool) :
    c.performAct t ⟨due, q, .load g a sz sx⟩ =
      { c.marked cirPSC ((List.range (2 ^ sz)).any fun j => c.badByte .ls (a + j)) with
        timeline := ⟨t + 2, q, .wg .S g (loadedWord ((List.range (2 ^ sz)).map fun j => c.byteRead .ls (a + j)) sz sx)⟩ ::
          c.timeline } := by
  rw [Core.performAct_load, Core.readMem_eq]
  simp only [Core.marked_timeline]

/-- A move marks the CIR and leaves its write for later. -/
theorem Core.performAct_move_eq (c : Core) (t due q : Nat) (src dst : Mem) (sp dp : List (Nat × Nat)) (bit : Nat) :
    c.performAct t ⟨due, q, .move src sp dst dp bit⟩ =
      { c.marked bit ((pieceAddrs sp).any (c.badByte src)) with
        timeline := ⟨t + 1, q, .wr dst dp (padTo dp ((pieceAddrs sp).map (c.byteRead src)))⟩ :: c.timeline } := by
  rw [Core.performAct_move, Core.readPieces_eq]
  simp only [Core.marked_timeline]

/-- A write of several pieces is the write of the first and then of the others. -/
theorem Core.performAct_wr_cons (c : Core) (t due q : Nat) (m : Mem) (a n : Nat) (ps : List (Nat × Nat)) (bs : List Byte) :
    c.performAct t ⟨due, q, .wr m ((a, n) :: ps) bs⟩ =
      (c.writeMem m a (bs.take n)).performAct t ⟨due, q, .wr m ps (bs.drop n)⟩ := rfl

theorem Core.performAct_wr_single (c : Core) (t due q : Nat) (m : Mem) (a n : Nat) (bs : List Byte) :
    c.performAct t ⟨due, q, .wr m [(a, n)] bs⟩ = c.writeMem m a (bs.take n) := rfl

/-- The value of a loaded element, byte by byte. -/
theorem Core.ofBytes_read_ls (c : Core) (a n : Nat) :
    ofBytes ((List.range n).map fun j => c.byteRead .ls (a + j)) =
      ((List.range n).map fun j =>
        (if c.poison.contains (.lsLine ((a + j) / 64)) then 0 else (c.ls.get (a + j)).toNat) * 256 ^ j).sum := by
  rw [ofBytes_map_range]
  refine congrArg List.sum (List.map_congr_left fun j _ => ?_)
  simp only [Core.byteRead, apply_ite BitVec.toNat]
  rfl

/-- Settles O18: a read is a mark in the CIR and an act put on the timeline; a write is a change of one memory and of the
poison marks. -/
theorem loadAndWriteActs : Obligations.LoadAndWriteActs := by
  unfold Obligations.LoadAndWriteActs
  refine ⟨?load, ?move, ?pieces, ?write⟩
  case load =>
    intro c cyc q g a sz sx _ n bad byte v d
    have hd : d = _ := c.performAct_load_eq cyc cyc q g a sz sx
    rw [loadedWord_eq, Core.ofBytes_read_ls] at hd
    clear_value d
    subst hd
    exact ⟨rfl, c.sameRegisters_marked .., fun m x => by rw [Core.mem_timeline, Core.marked_mem], Core.marked_cir ..⟩
  case move =>
    intro c cyc q src dst sp dp bit poisoned read bytes d
    have hd : d = _ := c.performAct_move_eq cyc cyc q src dst sp dp bit
    rw [padTo_eq] at hd
    clear_value d
    subst hd
    exact ⟨rfl, c.sameRegisters_marked .., fun m => by rw [Core.mem_timeline, Core.marked_mem], Core.marked_poison ..,
      Core.marked_cir ..⟩
  case pieces =>
    intro c cyc q m a n ps bs doing
    refine ⟨rfl, ?_⟩
    dsimp only [doing]
    rw [Core.performAct_wr_cons, Core.performAct_wr_single, List.take_take, Nat.min_self]
  case write =>
    intro c cyc q m a bs d
    have hd : d = c.writeMem m a (bs.take bs.length) := c.performAct_wr_single ..
    rw [List.take_length] at hd
    clear_value d
    subst hd
    simp only [Core.writeMem_mem, if_true]
    exact ⟨fun wf => Memory.get_write_inside wf, fun _ => Memory.get_write_outside, fun n x other => by rw [if_neg other],
      c.sameRegisters_writeMem m a bs, c.sameSystem_writeMem m a bs, c.writeMem_timeline m a bs,
      fun _ => Core.writeMem_poison_mem, fun _ => Core.unpoison_covered _ m⟩

end Sys2Proof.Machine
end
